-- ==== Sys2Proof/Word.lean ====
section
/-! DEFINITION. The word types of the block: one byte (R10), one register address as it reaches the bus (R51). -/

namespace Sys2Proof

/-- A **byte**, 8 bits (R10). -/
abbrev Byte := BitVec 8

/-- The six bits of a register address that reach the bus, `a[5:0]` (R50, R51). -/
abbrev BusAddr := BitVec 6

end Sys2Proof
end

