-- ==== Sys2Proof/Config.lean ====
section
/-! DEFINITION. The static configuration record CFG (R7, R8, R55) and the free value that stands for what the
environment answers (R12). The defaults and the legality of a CFG are in `Machine/Params.lean`. -/

namespace Sys2Proof

/-- The configuration record CFG: "a model takes CFG as an argument" (R7). Each field carries the spec's name in
lower camel case. A field whose range R9 bounds by a register's width has that width as its type (budgets up to
65535, statuses of two bits, masks of one byte), and so has RESERVED, a subset of 0 to 63 (R55); the
other bounds of R9 are `Cfg.legal`. -/
structure Cfg where
  /-- `POLL_BUDGET`: iteration budget of the EXEC poll loop. -/
  pollBudget    : BitVec 16
  /-- `CRC_BUDGET`: iteration budget of the CRC poll loop. -/
  crcBudget     : BitVec 16
  /-- `MAX_LEN`: largest number of bytes drained into the payload. -/
  maxLen        : BitVec 5
  /-- `IEN_AUTH`, `WAIT_AUTH`: the masks of Authenticate. -/
  ienAuth       : Byte
  waitAuth      : Byte
  /-- `IEN_TRX`, `WAIT_TRX`: the masks of Transceive. -/
  ienTrx        : Byte
  waitTrx       : Byte
  /-- `IEN_OTHER`, `WAIT_OTHER`: the masks of every other command. -/
  ienOther      : Byte
  waitOther     : Byte
  /-- `ST_OK`, `ST_NOTAG`, `ST_ERR`: the three status codes. -/
  stOk          : BitVec 2
  stNoTag       : BitVec 2
  stErr         : BitVec 2
  /-- `PACE`: optional delay per poll iteration, of no effect (R195). -/
  pace          : Nat
  /-- `REG_*`: the eleven chip registers the engine uses. -/
  regCommand    : Byte
  regIen        : Byte
  regIrq        : Byte
  regDivIrq     : Byte
  regError      : Byte
  regFifoData   : Byte
  regFifoLevel  : Byte
  regControl    : Byte
  regBitFraming : Byte
  regCrcL       : Byte
  regCrcH       : Byte
  /-- `CMD_*`: the five command opcodes the document names. -/
  cmdIdle       : Byte
  cmdCalcCrc    : Byte
  cmdTransceive : Byte
  cmdAuthent    : Byte
  cmdSoftReset  : Byte
  /-- `IEN_OR`: bits OR-ed into the interrupt-enable write besides the mask. -/
  ienOr         : Byte
  /-- `IRQ_CLEAR`: cleared in `REG_IRQ` to clear pending interrupt flags. -/
  irqClear      : Byte
  /-- `FIFO_FLUSH`: set in `REG_FIFO_LEVEL` to flush the FIFO. -/
  fifoFlush     : Byte
  /-- `START_SEND`: the start-send bit of `REG_BIT_FRAMING`. -/
  startSend     : Byte
  /-- `IRQ_TIMER`: the timer-interrupt bit of `REG_IRQ` and of the enable mask. -/
  irqTimer      : Byte
  /-- `ERR_MASK`: the error bits of `REG_ERROR`. -/
  errMask       : Byte
  /-- `CRC_DONE`: the CRC-done flag of `REG_DIVIRQ`. -/
  crcDone       : Byte
  /-- `LAST_BITS_LSB`: least significant bit of the 3-bit last-valid-bits field of `REG_CONTROL`. -/
  lastBitsLsb   : Nat
  /-- `RESERVED`: the register addresses that are never accessed, a subset of 0 to 63 (R55). -/
  reserved      : List BusAddr
  deriving DecidableEq, Repr

/-- FREE VALUE (R12; log 4): the byte the environment answers to the n-th read of a run when the plain-data list of
answers in State has run out. It has no body: nothing can be proved of its values. -/
opaque Config.freeAnswer : Nat → Byte

end Sys2Proof
end

