-- ==== Sys2Proof/Machine/Params.lean ====
section
/-! DEFINITION. The default CFG (R7: the document's values; R8, R55: general knowledge, log 2) and when a CFG is
legal (R9). -/

namespace Sys2Proof

/-- The defaults of R7 (from the document) and of R8 and R55 (PRESUMED: `[from general knowledge, not in source]`,
log 2). `ERR_MASK` is 0x1B as `90_conflicts.md` C9 keeps it. `PACE` is unspecified and of no effect (log 15). -/
def Cfg.default : Cfg where
  pollBudget := 2000
  crcBudget := 255
  maxLen := 16
  ienAuth := 0x12
  waitAuth := 0x10
  ienTrx := 0x77
  waitTrx := 0x30
  ienOther := 0x00
  waitOther := 0x00
  stOk := 0
  stNoTag := 1
  stErr := 2
  pace := 0
  regCommand := 0x01
  regIen := 0x02
  regIrq := 0x04
  regDivIrq := 0x05
  regError := 0x06
  regFifoData := 0x09
  regFifoLevel := 0x0A
  regControl := 0x0C
  regBitFraming := 0x0D
  regCrcL := 0x22
  regCrcH := 0x21
  cmdIdle := 0x00
  cmdCalcCrc := 0x03
  cmdTransceive := 0x0C
  cmdAuthent := 0x0E
  cmdSoftReset := 0x0F
  ienOr := 0x80
  irqClear := 0x80
  fifoFlush := 0x80
  startSend := 0x80
  irqTimer := 0x01
  errMask := 0x1B
  crcDone := 0x04
  lastBitsLsb := 0
  reserved := [0x00, 0x0F, 0x10, 0x1A, 0x1B, 0x1E, 0x20, 0x23, 0x25, 0x30, 0x3C, 0x3D, 0x3E, 0x3F]

/-- The eleven registers the engine accesses, and no other (R52). -/
def Cfg.registers (c : Cfg) : List Byte :=
  [c.regCommand, c.regIen, c.regIrq, c.regDivIrq, c.regError, c.regFifoData, c.regFifoLevel, c.regControl,
   c.regBitFraming, c.regCrcL, c.regCrcH]

/-- A **legal** CFG: the clauses (a) to (g) of R9, less the bounds that the field types already carry. -/
def Cfg.legal (c : Cfg) : Bool :=
  [ decide (c.pollBudget ≠ 0), decide (c.crcBudget ≠ 0),                           -- (a)
    decide (1 ≤ c.maxLen.toNat), decide (c.maxLen.toNat ≤ 16),                     -- (b)
    c.registers.all (fun a => decide (a.toNat ≤ 63) && !c.reserved.contains (a.extractLsb' 0 6)),  -- (c)
    decide c.registers.Nodup,                                                      -- (d)
    decide (c.cmdAuthent ≠ c.cmdTransceive),                                       -- (e)
    decide (c.irqTimer ≠ 0), decide (c.startSend ≠ 0), decide (c.fifoFlush ≠ 0), decide (c.crcDone ≠ 0),
    decide (c.lastBitsLsb ≤ 5),                                                    -- (f)
    decide (c.stOk ≠ c.stNoTag), decide (c.stOk ≠ c.stErr), decide (c.stNoTag ≠ c.stErr)  -- (g)
  ].all id

end Sys2Proof
end

