-- ==== Sys2Proof/Syntax.lean ====
section
/-! DEFINITION. The instructions: one constructor per row of spec/opcode_table.json. The requests are the abstract
requests of R70 (an operation, a command and the data bytes); the two bus rows are the primitives of R95 and R96. -/

namespace Sys2Proof

/-- An **instruction** (R5): a request, or one of the two bus primitives the engine is made of. `LEN` is not a field:
it is the number of data bytes (R71). -/
inductive Instr where
  /-- `EXEC.IDLE` (R128): `EXEC IDLE, data`. -/
  | execIdle (data : List Byte)
  /-- `EXEC.CALCCRC` (R129): `EXEC CALCCRC, data`. -/
  | execCalcCrc (data : List Byte)
  /-- `EXEC.TRANSCEIVE` (R126): `EXEC TRANSCEIVE, data`. -/
  | execTransceive (data : List Byte)
  /-- `EXEC.AUTHENT` (R127): `EXEC AUTHENT, data`. -/
  | execAuthent (data : List Byte)
  /-- `EXEC.SOFTRESET` (R130): `EXEC SOFTRESET, data`. -/
  | execSoftReset (data : List Byte)
  /-- `EXEC.OTHER` (R131): `EXEC cmd, data` with a command byte no other row matches. -/
  | execOther (cmd : Byte) (data : List Byte)
  /-- `CRC` (R134): `CRC data`. -/
  | crc (data : List Byte)
  /-- `BUS.WR a, v` (R95): one bus write. -/
  | busWr (a : BusAddr) (v : Byte)
  /-- `BUS.RD a` (R96): one bus read. -/
  | busRd (a : BusAddr)
  deriving DecidableEq, Repr

/-- Whether the instruction is a request (R5) and not a bus primitive (R102: the requester cannot ask the engine for
one). -/
def Instr.isRequest : Instr → Bool
  | .execIdle _ | .execCalcCrc _ | .execTransceive _ | .execAuthent _ | .execSoftReset _ | .execOther _ _
  | .crc _ => true
  | .busWr _ _ | .busRd _ => false

/-- Whether the instruction is an EXEC request. -/
def Instr.isExec : Instr → Bool
  | .execIdle _ | .execCalcCrc _ | .execTransceive _ | .execAuthent _ | .execSoftReset _ | .execOther _ _ => true
  | .crc _ | .busWr _ _ | .busRd _ => false

/-- The input bytes of a request; none for a bus primitive. -/
def Instr.data : Instr → List Byte
  | .execIdle d | .execCalcCrc d | .execTransceive d | .execAuthent d | .execSoftReset d | .execOther _ d | .crc d => d
  | .busWr _ _ | .busRd _ => []

end Sys2Proof
end

