-- ==== Sys2Proof/WellFormed.lean ====
section
/-! DEFINITION. Which instructions the encoding admits under a CFG. -/

namespace Sys2Proof

/-- `0 <= |data| <= 255` (R70, R74). -/
def dataFits (data : List Byte) : Bool := decide (data.length ≤ 255)

/-- The encoding admits `i`: its data fits LEN (R70, R74), and its command byte is not already taken by a row that is
tried before it. R84 ranks `EXEC.OTHER` last; among the five named rows the order is the table's (R83, log 14), and
the conditions on them are vacuous when the CFG gives the five commands five opcodes, as the default does. -/
def Instr.wellFormed (c : Cfg) : Instr → Bool
  | .execIdle d => dataFits d
  | .execCalcCrc d => dataFits d && decide (c.cmdCalcCrc ≠ c.cmdIdle)
  | .execTransceive d =>
    dataFits d && decide (c.cmdTransceive ≠ c.cmdIdle) && decide (c.cmdTransceive ≠ c.cmdCalcCrc)
  | .execAuthent d =>
    dataFits d && decide (c.cmdAuthent ≠ c.cmdIdle) && decide (c.cmdAuthent ≠ c.cmdCalcCrc)
    && decide (c.cmdAuthent ≠ c.cmdTransceive)
  | .execSoftReset d =>
    dataFits d && decide (c.cmdSoftReset ≠ c.cmdIdle) && decide (c.cmdSoftReset ≠ c.cmdCalcCrc)
    && decide (c.cmdSoftReset ≠ c.cmdTransceive) && decide (c.cmdSoftReset ≠ c.cmdAuthent)
  | .execOther cmd d =>
    dataFits d && decide (cmd ≠ c.cmdIdle) && decide (cmd ≠ c.cmdCalcCrc) && decide (cmd ≠ c.cmdTransceive)
    && decide (cmd ≠ c.cmdAuthent) && decide (cmd ≠ c.cmdSoftReset)
  | .crc d => dataFits d
  | .busWr _ _ => true
  | .busRd _ => true

end Sys2Proof
end

