-- ==== Sys2Proof/Decode.lean ====
section
/-! DEFINITION. The decoder of request frames (format Q, R71 to R75, R83 to R85) and of bus address bytes (formats
B-WR and B-RD, R80, R81, R86), total on any bytes and rejecting by name; then the encoder of the same formats; then
`decodeTableWord`, which reads a word numbered as spec/opcode_table.json numbers it. -/

namespace Sys2Proof

/-- Why a request frame is illegal (R79, R85). -/
inductive RejectReason where
  /-- `OP` is neither 0x00 nor 0x01 (reason 0x01). -/
  | reservedOp
  /-- `OP = CRC` with `CMD` other than 0x00 (reason 0x02). -/
  | crcCmd
  deriving DecidableEq, Repr

/-- What the decoder reads from the head of a byte sequence. -/
inductive Decoded where
  /-- A whole legal instruction, and the bytes after it. -/
  | instr (i : Instr) (rest : List Byte)
  /-- A whole illegal request frame (R85), and the bytes after it. -/
  | reject (r : RejectReason) (rest : List Byte)
  /-- An address byte with bit 0 set (R86), and the bytes after it. -/
  | reservedByte (ab : Byte) (rest : List Byte)
  /-- The bytes are only the beginning of a frame. -/
  | incomplete
  deriving DecidableEq, Repr

/-! ## The bus address byte (R80, R81) -/

/-- Format B-WR: `AB = (a << 1) & 0x7F` (R80). -/
def addrByteWr (a : Byte) : Byte := (a <<< 1) &&& 0x7F

/-- Format B-RD: `AB = ((a << 1) & 0x7F) | 0x80` (R81). -/
def addrByteRd (a : Byte) : Byte := ((a <<< 1) &&& 0x7F) ||| 0x80

/-- `a[5:0]`, all of the address that reaches the bus (R51). -/
def busAddr (a : Byte) : BusAddr := a.extractLsb' 0 6

/-- The register an address byte names: `AB[6:1] = a[5:0]` (R80, R81). -/
def addrOfByte (ab : Byte) : BusAddr := ab.extractLsb' 1 6

/-! ## The decoder -/

/-- The EXEC row that the command byte selects (R83, R84): the named rows first, in the table's order (log 14),
`EXEC.OTHER` last. -/
def selectExec (c : Cfg) (cmd : Byte) (data : List Byte) : Instr :=
  if cmd = c.cmdIdle then .execIdle data
  else if cmd = c.cmdCalcCrc then .execCalcCrc data
  else if cmd = c.cmdTransceive then .execTransceive data
  else if cmd = c.cmdAuthent then .execAuthent data
  else if cmd = c.cmdSoftReset then .execSoftReset data
  else .execOther cmd data

/-- Decode a whole frame from its three header bytes and the bytes after them; `LEN` of those are its data (R71, R72,
R73, R85). -/
def decodeBody (c : Cfg) (op cmd : Byte) (data rest : List Byte) : Decoded :=
  if op = 0x00 then .instr (selectExec c cmd data) rest
  else if op = 0x01 then
    if cmd = 0x00 then .instr (.crc data) rest else .reject .crcCmd rest
  else .reject .reservedOp rest

/-- Decode the request frame at the head of the bytes (format Q, R71, R87). A frame shorter than `3 + LEN` is not
whole and the engine does not start on it (R70). -/
def decodeRequest (c : Cfg) : List Byte → Decoded
  | op :: cmd :: len :: body =>
    if body.length < len.toNat then .incomplete
    else decodeBody c op cmd (body.take len.toNat) (body.drop len.toNat)
  | _ => .incomplete

/-- Decode the bus transaction at the head of the bytes (formats B-WR and B-RD): bit 0 of the address byte must be 0
(R86), bit 7 tells a read from a write (R80, R81), and a write's data byte follows (R95). -/
def decodeBus : List Byte → Decoded
  | [] => .incomplete
  | ab :: rest =>
    if ab.getLsbD 0 then .reservedByte ab rest
    else if ab.getLsbD 7 then .instr (.busRd (addrOfByte ab)) rest
    else match rest with
      | [] => .incomplete
      | v :: rest' => .instr (.busWr (addrOfByte ab) v) rest'

/-! ## The encoder -/

/-- The header and data of a request frame (R71). -/
def encodeFrame (op cmd : Byte) (data : List Byte) : List Byte :=
  op :: cmd :: BitVec.ofNat 8 data.length :: data

/-- The bytes of an instruction: the request frame (R71 to R73, R83) or the bytes the transport puts on the bus
(R80, R81, R95, R96). -/
def encode (c : Cfg) : Instr → List Byte
  | .execIdle d => encodeFrame 0x00 c.cmdIdle d
  | .execCalcCrc d => encodeFrame 0x00 c.cmdCalcCrc d
  | .execTransceive d => encodeFrame 0x00 c.cmdTransceive d
  | .execAuthent d => encodeFrame 0x00 c.cmdAuthent d
  | .execSoftReset d => encodeFrame 0x00 c.cmdSoftReset d
  | .execOther cmd d => encodeFrame 0x00 cmd d
  | .crc d => encodeFrame 0x01 0x00 d
  | .busWr a v => [addrByteWr (a.setWidth 8), v]
  | .busRd a => [addrByteRd (a.setWidth 8)]

/-! ## Words as the opcode table numbers them (R75, R83) -/

/-- The 24-bit header word `H = OP << 16 | CMD << 8 | LEN` (R75). -/
def headerWord (op cmd len : Byte) : BitVec 24 := op ++ cmd ++ len

/-- The bytes of the instruction whose bits, as the table numbers them, are `w`: for a request the three header bytes
in frame order (`H[23:16]` first, R71, R75) and `LEN` data bytes of zero; for a bus row the address byte and, for a
write, a data byte of zero. -/
def tableBytes (nbits w : Nat) : Option (List Byte) :=
  let byte (k : Nat) : Byte := BitVec.ofNat 8 (w >>> (8 * k))
  match nbits with
  | 24 => some (byte 2 :: byte 1 :: byte 0 :: List.replicate (byte 0).toNat 0)
  | 8 => some (if (byte 0).getLsbD 7 then [byte 0] else [byte 0, 0])
  | _ => none

/-- The instruction the decoder reads from a table word, under the default CFG, from which the table's five command
values are taken (R83). A row of 24 bits is a request, a row of 8 bits a bus address byte. -/
def decodeTableWord (nbits w : Nat) : Option Instr :=
  match tableBytes nbits w with
  | none => none
  | some bytes =>
    match (if nbits = 8 then decodeBus bytes else decodeRequest Cfg.default bytes) with
    | .instr i _ => some i
    | _ => none

end Sys2Proof
end

