-- ==== Sys2Proof/Machine/State.lean ====
section
/-! DEFINITION. The state of the block: the 21 engine registers of R21, the configuration they run under, the two
ports and the environment as plain data, the reasons to stop, and the machine right after reset (R43). -/

namespace Sys2Proof.Machine

/-- PHASE, the sequencer state and the block's program counter (R23): 29 values. -/
inductive Phase where
  | idle
  | xIenWr | xIrqRd | xIrqWr | xFlushRd | xFlushWr | xIdleWr | xLoad | xCmdWr | xStartRd | xStartWr
  | xPoll | xStopRd | xStopWr | xErrRd | xLevelRd | xLastRd | xDrain | xDone
  | cClrRd | cClrWr | cFlushRd | cFlushWr | cLoad | cCmdWr | cPoll | cResL | cResH | cDone
  deriving DecidableEq, Repr

/-- OP, the operation in progress (R21): 0 = EXEC, 1 = CRC (`Op.code`). -/
inductive Op where
  | exec
  | crc
  deriving DecidableEq, Repr

/-- One bus transaction (R58, R95, R96): the register is the six address bits that reach the bus (R51). -/
inductive Txn where
  /-- A write delivered to the transport. -/
  | write (a : BusAddr) (v : Byte)
  /-- A read and the byte the environment answered. -/
  | read (a : BusAddr) (answer : Byte)
  deriving DecidableEq, Repr

/-- A response (R76). `bitLen` is the 12-bit register; the integer R76 speaks of is its `toInt`. -/
inductive Response where
  /-- An EXEC response (status, payload, validBits, bitLen). -/
  | exec (status : BitVec 2) (payload : List Byte) (validBits : BitVec 3) (bitLen : BitVec 12)
  /-- A CRC response (low, high). -/
  | crc (low high : Byte)
  /-- A REJECT with its reason (R79). -/
  | reject (reason : RejectReason)
  deriving DecidableEq, Repr

/-- What the requester presents to the block and the block has not taken yet (log 6, log 7). -/
inductive Inbound where
  /-- Bytes presented on the framed request port: one frame or several (R71, R85). -/
  | request (bytes : List Byte)
  /-- The bus bytes of the requester's own accesses to the shared Register Transport (R102, R183). -/
  | access (bytes : List Byte)
  deriving DecidableEq, Repr

/-- The chip's register space as the engine's side knows it: the byte last delivered to each register address, in
canonical form (addresses strictly rising, log 5). What a read is ANSWERED does not come from here (R12). -/
abbrev Memory := List Host.Cell

/-- The whole state. The first group is the static record CFG (log 1), the second the registers of R21, the third the
bus and the environment (log 4, log 5), the fourth the ports and the reset input (log 6, log 8). -/
structure State where
  cfg       : Cfg
  phase     : Phase
  op        : Op
  cmd       : Byte
  len       : Byte
  inBuf     : Vector Byte 255
  idx       : Byte
  ien       : Byte
  wait      : Byte
  cnt       : BitVec 16
  t         : Byte
  nirq      : Byte
  err       : Byte
  lvl       : Byte
  vb        : BitVec 3
  dcnt      : BitVec 5
  bitLen    : BitVec 12
  outBuf    : Vector Byte 16
  olen      : BitVec 5
  status    : BitVec 2
  crcL      : Byte
  crcH      : Byte
  answers   : List Byte
  reads     : Nat
  bus       : List Txn
  mem       : Memory
  inbox     : List Inbound
  responses : List Response
  resetIn   : Option Nat
  deriving DecidableEq, Repr

/-- The engine has no fault: "There is no fault, no trap and no stuck state inside the engine" (R13, R158). Nobody
raises one, so the type has no constructor. -/
inductive Fault where
  deriving DecidableEq, Repr

/-- The reasons a step has no next state. -/
inductive Refusal where
  /-- The CFG is not legal: "a model refuses to be instantiated with any other" (R9, U4). Raised by `step` before
  anything else. Safe: nothing is claimed of an illegal CFG (log 10). -/
  | illegalCfg
  /-- An address byte with bit 0 set was presented to the transport (R86: "What the chip does with such a byte is not
  the engine's concern"). Raised by `step` when it decodes such a byte; no instruction has this encoding. Safe
  (log 11). -/
  | reservedBusByte
  /-- The instruction has no meaning in this model yet. Raised by no arm: every row of the table has its meaning.
  Safe. -/
  | notModelled (mnemonic : String)
  deriving DecidableEq, Repr

/-- The machine right after reset, with the default CFG (R43, R175, R176). IN and OUT are unspecified by R43, which
lets a model take 0 (log 9); the ports are empty, nothing has happened on the bus (R177), and the environment's answers
are all still free (log 4). -/
def State.reset : State where
  cfg := Cfg.default
  phase := .idle
  op := .exec
  cmd := 0
  len := 0
  inBuf := Vector.replicate 255 0
  idx := 0
  ien := 0
  wait := 0
  cnt := 0
  t := 0
  nirq := 0
  err := 0
  lvl := 0
  vb := 0
  dcnt := 0
  bitLen := 0
  outBuf := Vector.replicate 16 0
  olen := 0
  status := Cfg.default.stErr
  crcL := 0
  crcH := 0
  answers := []
  reads := 0
  bus := []
  mem := []
  inbox := []
  responses := []
  resetIn := none

end Sys2Proof.Machine
end

