-- ==== Sys2Proof/Machine/Operands.lean ====
section
/-! DEFINITION. How every value that the engine puts on the bus, in a register or in a response is assembled (R82),
the arithmetic of R122, R123 and R133, the encodings of PHASE and OP (R23), the wire bytes of a transaction (R80, R81)
and the response frames (R77, R78, R79). -/

namespace Sys2Proof.Machine

/-! ## Bytes from bytes (R82) -/

/-- The set-bits value `T | m` (R82 (c), R97). -/
def setBits (t m : Byte) : Byte := t ||| m

/-- The clear-bits value `T & ~m` (R82 (c), R98). -/
def clearBits (t m : Byte) : Byte := t &&& ~~~m

/-- validBits: `(v >> LAST_BITS_LSB) & 0x07` of the byte read from `REG_CONTROL` (R82 (d)). -/
def validBitsOf (lsb : Nat) (v : Byte) : BitVec 3 := ((v >>> lsb) &&& 0x07).setWidth 3

/-- The exact received bit length (R122), computed in the integers from the unclamped level. -/
def exactBitLen (lvl : Byte) (vb : BitVec 3) : Int :=
  if vb ≠ 0 then ((lvl.toNat : Int) - 1) * 8 + vb.toNat else (lvl.toNat : Int) * 8

/-- BITLEN, the 12-bit two's complement register that holds it (R36). -/
def bitLenOf (lvl : Byte) (vb : BitVec 3) : BitVec 12 := BitVec.ofInt 12 (exactBitLen lvl vb)

/-- DCNT: the level clamped to 1 .. MAX_LEN (R35, R123). -/
def drainCount (maxLen : BitVec 5) (lvl : Byte) : BitVec 5 :=
  if lvl = 0 then 1 else if maxLen.toNat < lvl.toNat then maxLen else lvl.setWidth 5

/-- The pair (IEN, WAIT) selected by command (R105, R90). -/
def masksOf (c : Cfg) (cmd : Byte) : Byte × Byte :=
  if cmd = c.cmdAuthent then (c.ienAuth, c.waitAuth)
  else if cmd = c.cmdTransceive then (c.ienTrx, c.waitTrx)
  else (c.ienOther, c.waitOther)

/-! ## The byte buffers (R28, R37) -/

/-- `x[IN][k] <- data[k]` from index `k` on, the bytes beyond the data kept (R28). -/
def loadFrom {n : Nat} (v : Vector Byte n) (k : Nat) : List Byte → Vector Byte n
  | [] => v
  | b :: rest => loadFrom (v.setIfInBounds k b) (k + 1) rest

/-- `x[IN][x[IDX]]` (R110). IDX is at most 254 when the engine reads it (R133); log 12 for other states. -/
def inByte (s : State) : Byte := s.inBuf[s.idx.toNat]?.getD 0

/-- `x[OUT][0 .. x[OLEN]-1]`, the payload of a response (R37, R125). -/
def payload (s : State) : List Byte := s.outBuf.toList.take s.olen.toNat

/-! ## Encodings of the enumerated registers (R21, R23, R72) -/

/-- The 5-bit encoding of PHASE (R23). -/
def Phase.code : Phase → BitVec 5
  | .idle => 0
  | .xIenWr => 1 | .xIrqRd => 2 | .xIrqWr => 3 | .xFlushRd => 4 | .xFlushWr => 5 | .xIdleWr => 6 | .xLoad => 7
  | .xCmdWr => 8 | .xStartRd => 9 | .xStartWr => 10 | .xPoll => 11 | .xStopRd => 12 | .xStopWr => 13 | .xErrRd => 14
  | .xLevelRd => 15 | .xLastRd => 16 | .xDrain => 17 | .xDone => 18
  | .cClrRd => 19 | .cClrWr => 20 | .cFlushRd => 21 | .cFlushWr => 22 | .cLoad => 23 | .cCmdWr => 24 | .cPoll => 25
  | .cResL => 26 | .cResH => 27 | .cDone => 28

/-- The 1-bit encoding of OP (R21). -/
def Op.code : Op → BitVec 1
  | .exec => 0
  | .crc => 1

/-! ## The bus bytes of a transaction (R80, R81, R56 (d)) -/

/-- The bytes the transport puts on the bus: the address byte, and for a write the data byte after it. -/
def Txn.wire : Txn → List Byte
  | .write a v => [addrByteWr (a.setWidth 8), v]
  | .read a _ => [addrByteRd (a.setWidth 8)]

/-- The register of a transaction. -/
def Txn.addr : Txn → BusAddr
  | .write a _ => a
  | .read a _ => a

/-- The page of a register address, `a[5:4]`, if the four pages are of equal size (R51, G4; PRESUMED, log 17). No rule
of the engine depends on it. -/
def pageOf (a : BusAddr) : BitVec 2 := a.extractLsb' 4 2

/-! ## The response frames (R77, R78, R79) -/

/-- The reason codes of a REJECT (R79). -/
def reasonCode : RejectReason → Byte
  | .reservedOp => 0x01
  | .crcCmd => 0x02

/-- The response frame: P-EXEC with BITLEN low byte first (R77), P-CRC (R78), P-REJ (R79). -/
def Response.frame : Response → List Byte
  | .exec status payload vb bitLen =>
    0x00 :: status.setWidth 8 :: BitVec.ofNat 8 payload.length :: vb.setWidth 8
      :: (bitLen.signExtend 16).extractLsb' 0 8 :: (bitLen.signExtend 16).extractLsb' 8 8 :: payload
  | .crc low high => [0x01, low, high]
  | .reject reason => [0xFF, reasonCode reason]

end Sys2Proof.Machine
end

