-- ==== Sys2Proof/Machine/Flags.lean ====
section
/-! DEFINITION. The conditions the sequencer's branches test (R41). None is stored: each is computed from registers at
the moment of the test. -/

namespace Sys2Proof.Machine

/-- **exhausted**: `CNT = 0` (R41, R117). -/
def exhausted (s : State) : Bool := decide (s.cnt = 0)

/-- **timer seen**: `(NIRQ & IRQ_TIMER) != 0` (R41). -/
def timerSeen (s : State) : Bool := decide (s.nirq &&& s.cfg.irqTimer ≠ 0)

/-- **wait seen**: `(NIRQ & WAIT) != 0`, any bit of the mask (R41, C10). -/
def waitSeen (s : State) : Bool := decide (s.nirq &&& s.wait ≠ 0)

/-- **crc done seen**: `(NIRQ & CRC_DONE) != 0` (R41). -/
def crcDoneSeen (s : State) : Bool := decide (s.nirq &&& s.cfg.crcDone ≠ 0)

/-- **chip error**: `(ERR & ERR_MASK) != 0` (R41). -/
def chipError (s : State) : Bool := decide (s.err &&& s.cfg.errMask ≠ 0)

/-- **is transceive**: `CMD = CMD_TRANSCEIVE` (R41). -/
def isTransceive (s : State) : Bool := decide (s.cmd = s.cfg.cmdTransceive)

/-- The NoTagError test `(NIRQ & IEN & IRQ_TIMER) != 0` (R54, R120). -/
def noTagSeen (s : State) : Bool := decide (s.nirq &&& s.ien &&& s.cfg.irqTimer ≠ 0)

/-- The exit test of the EXEC poll loop, on the values after the read and the decrement (R114). -/
def pollExit (s : State) : Bool := exhausted s || timerSeen s || waitSeen s

/-- The exit test of the CRC poll loop (R140). -/
def crcPollExit (s : State) : Bool := exhausted s || crcDoneSeen s

/-- There is an input byte left to load: `IDX < LEN` (R110, R138). -/
def moreToLoad (s : State) : Bool := decide (s.idx.toNat < s.len.toNat)

/-- There is a FIFO byte left to drain: `IDX < DCNT` (R124). -/
def moreToDrain (s : State) : Bool := decide (s.idx.toNat < s.dcnt.toNat)

/-- The status that X_ERR_RD leaves, once ERR is latched (R119, R120): unchanged on a chip error (it stays `ST_ERR`,
R104), else NoTagError or Ok. -/
def statusAfterErr (s : State) : BitVec 2 :=
  if chipError s then s.status else if noTagSeen s then s.cfg.stNoTag else s.cfg.stOk

/-- The cause table (R151, R163): exhaustion, then chip error, then NoTagError, then Ok. -/
def causeTable (s : State) : BitVec 2 :=
  if exhausted s then s.cfg.stErr
  else if chipError s then s.cfg.stErr
  else if noTagSeen s then s.cfg.stNoTag
  else s.cfg.stOk

end Sys2Proof.Machine
end

