-- ==== Sys2Proof/Machine/Ops.lean ====
section
/-! DEFINITION. The operations the phases and the instructions share: the register space, the two bus primitives (R95,
R96), SETB and CLRB (R97, R98), the ports (R76, R85), acceptance of a request (R104, R135) and the reset input (R175).

There is no operation that takes an exception and none that returns from one: "There is no trap entry" (R158), "There is
no return instruction and no nesting" (R159). An abnormal outcome is a STATUS value (R150) or a REJECT (R156). -/

namespace Sys2Proof.Machine

/-! ## The register space (R50, log 5) -/

/-- What an address reads as that no write has been delivered to: no byte (log 5). -/
def Memory.unlisted : Option Byte := none

/-- The byte last delivered to a register address. -/
def Memory.read : Memory → Nat → Option Byte
  | [], _ => Memory.unlisted
  | c :: rest, a => if c.1 = a then some c.2 else Memory.read rest a

/-- Deliver a byte to a register address, keeping the addresses strictly rising. -/
def Memory.write : Memory → Nat → Byte → Memory
  | [], a, v => [(a, v)]
  | c :: rest, a, v =>
    if a < c.1 then (a, v) :: c :: rest
    else if a = c.1 then (a, v) :: rest
    else c :: Memory.write rest a v

/-- The canonical form above a lower bound: addresses strictly rising and below 64 (R50). -/
def Memory.wfFrom : Nat → Memory → Bool
  | _, [] => true
  | k, c :: rest => decide (k ≤ c.1) && decide (c.1 < 64) && Memory.wfFrom (c.1 + 1) rest

/-- The canonical form of the register space. No entry equals what an unlisted address reads as, because that is no
byte. -/
def Memory.wf (m : Memory) : Bool := Memory.wfFrom 0 m

/-! ## Sequencing -/

/-- `x[PHASE] <- p` (R11). -/
def goto (p : Phase) (s : State) : State := { s with phase := p }

/-! ## The bus primitives (R95, R96) -/

/-- `MemWrite(a, 1, v)`, BUS.WR (R95): one write transaction, no engine register written. -/
def busWrite (a v : Byte) (s : State) : State :=
  { s with bus := s.bus ++ [.write (busAddr a) v], mem := Memory.write s.mem (busAddr a).toNat v }

/-- The byte the environment answers to the next read (R12): the next of the listed answers, or, when none is listed,
the free value of this read (log 4). -/
def answer (s : State) : Byte :=
  match s.answers with
  | v :: _ => v
  | [] => Config.freeAnswer s.reads

/-- `MemRead(a, 1)`, BUS.RD (R96): one read transaction, answered `answer s`. No engine register is written here: the
calling step latches the answer into the register it names. -/
def busRead (a : Byte) (s : State) : State :=
  { s with bus := s.bus ++ [.read (busAddr a) (answer s)], answers := s.answers.tail, reads := s.reads + 1 }

/-- `x[T] <- MemRead(a, 1)`, the read half of SETB and CLRB (R30, R97, R98). -/
def readToT (a : Byte) (s : State) : State := { busRead a s with t := answer s }

/-- `SETB a, m` (R97): two transactions, not atomic (R64). -/
def setb (a m : Byte) (s : State) : State :=
  let s1 := readToT a s
  busWrite a (setBits s1.t m) s1

/-- `CLRB a, m` (R98): two transactions, not atomic (R64). -/
def clrb (a m : Byte) (s : State) : State :=
  let s1 := readToT a s
  busWrite a (clearBits s1.t m) s1

/-! ## The ports -/

/-- `respond(...)`: emit a response and return to IDLE (R11, R125, R142). -/
def respond (r : Response) (s : State) : State :=
  { s with responses := s.responses ++ [r], phase := .idle }

/-- REJECT (R85, R156): the frame is consumed (by the caller), a REJECT is emitted, no register changes and no bus
transaction is made. -/
def reject (reason : RejectReason) (s : State) : State :=
  { s with responses := s.responses ++ [.reject reason] }

/-- Acceptance of an EXEC request in IDLE (R104), with the mask selection of R105. -/
def acceptExec (cmd : Byte) (data : List Byte) (s : State) : State :=
  { s with
    op := .exec
    cmd := cmd
    len := BitVec.ofNat 8 data.length
    inBuf := loadFrom s.inBuf 0 data
    idx := 0
    status := s.cfg.stErr
    olen := 0
    vb := 0
    bitLen := 0
    ien := (masksOf s.cfg cmd).1
    wait := (masksOf s.cfg cmd).2
    phase := .xIenWr }

/-- Acceptance of a CRC request in IDLE (R135). STATUS, OLEN, VB, BITLEN, OUT, CRCL and CRCH stay as they are. -/
def acceptCrc (data : List Byte) (s : State) : State :=
  { s with
    op := .crc
    cmd := s.cfg.cmdCalcCrc
    len := BitVec.ofNat 8 data.length
    inBuf := loadFrom s.inBuf 0 data
    idx := 0
    ien := 0
    wait := 0
    phase := .cClrRd }

/-! ## The reset input (R175 to R178, log 8) -/

/-- The engine's reset: every register in the state of R43 (IN and OUT: log 9), whatever the phase was. CFG is not
state and does not change; no bus transaction is made, no response is emitted, and neither the chip nor the requester
is touched (R177, R178). -/
def resetEngine (s : State) : State :=
  { State.reset with
    cfg := s.cfg
    status := s.cfg.stErr
    answers := s.answers
    reads := s.reads
    bus := s.bus
    mem := s.mem
    inbox := s.inbox
    responses := s.responses
    resetIn := none }

/-- One engine step of the countdown to the reset input. -/
def tick (s : State) : State := { s with resetIn := s.resetIn.map (· - 1) }

/-- The reset input is asserted now: it takes effect before the next engine step (R178). -/
def resetNow (s : State) : Bool := decide (s.resetIn = some 0)

end Sys2Proof.Machine
end

