-- ==== Sys2Proof/Machine/Bus.lean ====
section
/-! DEFINITION. The meanings of the two bus rows, BUS.WR (R95) and BUS.RD (R96). The engine's phases use the same
`busWrite` and `busRead`; as instructions of their own they are the requester's accesses to the shared Register
Transport (R102, R183, log 7). RESERVED restrains the engine only (R55, R99): that such an access to a reserved address
is a transaction like any other is the model's choice (log 21). -/

namespace Sys2Proof.Machine

/-- BUS.WR (R95), at any of the 64 addresses, a reserved one too (log 21). -/
def execBusWr (a : BusAddr) (v : Byte) (s : State) : Host.Outcome State Fault Refusal :=
  .next (busWrite (a.setWidth 8) v s)

/-- BUS.RD (R96), at any of the 64 addresses, a reserved one too (log 21): the byte read is the answer in the last
transaction of `bus` (log 7). -/
def execBusRd (a : BusAddr) (s : State) : Host.Outcome State Fault Refusal :=
  .next (busRead (a.setWidth 8) s)

end Sys2Proof.Machine
end

