-- ==== Sys2Proof/Machine/Phases.lean ====
section
/-! DEFINITION. The step of each phase (R23, R24, R25): one definition per phase, each at most one bus transaction, the
register writes of the phase's rule and the change of PHASE to its successor. -/

namespace Sys2Proof.Machine

/-! ## EXEC (R106 to R125) -/

/-- X_IEN_WR (R106). -/
def phaseXIenWr (s : State) : State := goto .xIrqRd (busWrite s.cfg.regIen (s.ien ||| s.cfg.ienOr) s)

/-- X_IRQ_RD (R107). -/
def phaseXIrqRd (s : State) : State := goto .xIrqWr (readToT s.cfg.regIrq s)

/-- X_IRQ_WR (R107). -/
def phaseXIrqWr (s : State) : State :=
  goto .xFlushRd (busWrite s.cfg.regIrq (clearBits s.t s.cfg.irqClear) s)

/-- X_FLUSH_RD (R108). -/
def phaseXFlushRd (s : State) : State := goto .xFlushWr (readToT s.cfg.regFifoLevel s)

/-- X_FLUSH_WR (R108). -/
def phaseXFlushWr (s : State) : State :=
  goto .xIdleWr (busWrite s.cfg.regFifoLevel (setBits s.t s.cfg.fifoFlush) s)

/-- X_IDLE_WR (R109). -/
def phaseXIdleWr (s : State) : State :=
  goto (if s.len ≠ 0 then .xLoad else .xCmdWr) (busWrite s.cfg.regCommand s.cfg.cmdIdle s)

/-- The load step shared by X_LOAD and C_LOAD: write `IN[IDX]` to the FIFO data register and increment IDX (R110,
R138). -/
def loadByte (s : State) : State := { busWrite s.cfg.regFifoData (inByte s) s with idx := s.idx + 1 }

/-- X_LOAD (R110). -/
def phaseXLoad (s : State) : State :=
  let s1 := loadByte s
  goto (if moreToLoad s1 then .xLoad else .xCmdWr) s1

/-- `x[CNT] <- b`: load a poll budget (R113, R139). -/
def loadCnt (b : BitVec 16) (s : State) : State := { s with cnt := b }

/-- X_CMD_WR (R111, R113): for a command other than Transceive this step also loads the poll budget. -/
def phaseXCmdWr (s : State) : State :=
  let s1 := busWrite s.cfg.regCommand s.cmd s
  if isTransceive s then goto .xStartRd s1 else goto .xPoll (loadCnt s.cfg.pollBudget s1)

/-- X_START_RD (R112). -/
def phaseXStartRd (s : State) : State := goto .xStartWr (readToT s.cfg.regBitFraming s)

/-- X_START_WR (R112, R113). -/
def phaseXStartWr (s : State) : State :=
  goto .xPoll (loadCnt s.cfg.pollBudget (busWrite s.cfg.regBitFraming (setBits s.t s.cfg.startSend) s))

/-- One poll, shared by X_POLL and C_POLL: read the register into NIRQ, then decrement CNT (R114, R140). -/
def pollOnce (a : Byte) (s : State) : State := { busRead a s with nirq := answer s, cnt := s.cnt - 1 }

/-- X_POLL (R114). -/
def phaseXPoll (s : State) : State :=
  let s1 := pollOnce s.cfg.regIrq s
  goto (if pollExit s1 then .xStopRd else .xPoll) s1

/-- X_STOP_RD (R118). -/
def phaseXStopRd (s : State) : State := goto .xStopWr (readToT s.cfg.regBitFraming s)

/-- X_STOP_WR (R118). -/
def phaseXStopWr (s : State) : State :=
  goto (if exhausted s then .xDone else .xErrRd)
    (busWrite s.cfg.regBitFraming (clearBits s.t s.cfg.startSend) s)

/-- `x[ERR] <- MemRead(REG_ERROR, 1)` (R119). -/
def readErr (s : State) : State := { busRead s.cfg.regError s with err := answer s }

/-- `x[STATUS] <- st` (R11, R119, R120). -/
def setStatus (st : BitVec 2) (s : State) : State := { s with status := st }

/-- X_ERR_RD (R119, R120). -/
def phaseXErrRd (s : State) : State :=
  let s1 := readErr s
  goto (if chipError s1 then .xDone else if isTransceive s1 then .xLevelRd else .xDone)
    (setStatus (statusAfterErr s1) s1)

/-- `x[LVL] <- MemRead(REG_FIFO_LEVEL, 1)` (R121): the whole byte, unmasked (R33). -/
def readLevel (s : State) : State := { busRead s.cfg.regFifoLevel s with lvl := answer s }

/-- X_LEVEL_RD (R121). -/
def phaseXLevelRd (s : State) : State := goto .xLastRd (readLevel s)

/-- The read of the last-valid-bits field and what is computed from it and LVL: VB, BITLEN (R122), DCNT (R123), and
`x[IDX] <- 0` (R121). -/
def readLast (s : State) : State :=
  { busRead s.cfg.regControl s with
    vb := validBitsOf s.cfg.lastBitsLsb (answer s)
    bitLen := bitLenOf s.lvl (validBitsOf s.cfg.lastBitsLsb (answer s))
    dcnt := drainCount s.cfg.maxLen s.lvl
    idx := 0 }

/-- X_LAST_RD (R121, R122, R123). -/
def phaseXLastRd (s : State) : State := goto .xDrain (readLast s)

/-- The drain step: read one FIFO byte into `OUT[IDX]`, `OLEN <- IDX + 1`, increment IDX (R124). -/
def drainByte (s : State) : State :=
  { busRead s.cfg.regFifoData s with
    outBuf := s.outBuf.setIfInBounds s.idx.toNat (answer s)
    olen := s.idx.setWidth 5 + 1
    idx := s.idx + 1 }

/-- X_DRAIN (R124). -/
def phaseXDrain (s : State) : State :=
  let s1 := drainByte s
  goto (if moreToDrain s1 then .xDrain else .xDone) s1

/-- X_DONE (R125): no transaction, no register but PHASE changes. -/
def phaseXDone (s : State) : State := respond (.exec s.status (payload s) s.vb s.bitLen) s

/-! ## CRC (R136 to R142) -/

/-- C_CLR_RD (R136). -/
def phaseCClrRd (s : State) : State := goto .cClrWr (readToT s.cfg.regDivIrq s)

/-- C_CLR_WR (R136). -/
def phaseCClrWr (s : State) : State :=
  goto .cFlushRd (busWrite s.cfg.regDivIrq (clearBits s.t s.cfg.crcDone) s)

/-- C_FLUSH_RD (R137). -/
def phaseCFlushRd (s : State) : State := goto .cFlushWr (readToT s.cfg.regFifoLevel s)

/-- C_FLUSH_WR (R137). -/
def phaseCFlushWr (s : State) : State :=
  goto (if s.len ≠ 0 then .cLoad else .cCmdWr)
    (busWrite s.cfg.regFifoLevel (setBits s.t s.cfg.fifoFlush) s)

/-- C_LOAD (R138). -/
def phaseCLoad (s : State) : State :=
  let s1 := loadByte s
  goto (if moreToLoad s1 then .cLoad else .cCmdWr) s1

/-- C_CMD_WR (R139). -/
def phaseCCmdWr (s : State) : State :=
  goto .cPoll (loadCnt s.cfg.crcBudget (busWrite s.cfg.regCommand s.cfg.cmdCalcCrc s))

/-- C_POLL (R140). -/
def phaseCPoll (s : State) : State :=
  let s1 := pollOnce s.cfg.regDivIrq s
  goto (if crcPollExit s1 then .cResL else .cPoll) s1

/-- `x[CRCL] <- MemRead(REG_CRC_L, 1)` (R141). -/
def readCrcL (s : State) : State := { busRead s.cfg.regCrcL s with crcL := answer s }

/-- `x[CRCH] <- MemRead(REG_CRC_H, 1)` (R141). -/
def readCrcH (s : State) : State := { busRead s.cfg.regCrcH s with crcH := answer s }

/-- C_RES_L (R141). -/
def phaseCResL (s : State) : State := goto .cResH (readCrcL s)

/-- C_RES_H (R141). -/
def phaseCResH (s : State) : State := goto .cDone (readCrcH s)

/-- C_DONE (R142). -/
def phaseCDone (s : State) : State := respond (.crc s.crcL s.crcH) s

end Sys2Proof.Machine
end

