-- ==== Sys2Proof/Machine/Engine.lean ====
section
/-! DEFINITION. The engine as a sequencer: the step of the current phase (R25), the same with the reset input (R178),
and the engine running until it is back in IDLE. -/

namespace Sys2Proof.Machine

/-- The step of the engine (R25): the action of the current phase. In IDLE nothing happens here; a request is taken by
the acceptance operations (R104, R135). -/
def phaseStep (s : State) : State :=
  match s.phase with
  | .idle => s
  | .xIenWr => phaseXIenWr s
  | .xIrqRd => phaseXIrqRd s
  | .xIrqWr => phaseXIrqWr s
  | .xFlushRd => phaseXFlushRd s
  | .xFlushWr => phaseXFlushWr s
  | .xIdleWr => phaseXIdleWr s
  | .xLoad => phaseXLoad s
  | .xCmdWr => phaseXCmdWr s
  | .xStartRd => phaseXStartRd s
  | .xStartWr => phaseXStartWr s
  | .xPoll => phaseXPoll s
  | .xStopRd => phaseXStopRd s
  | .xStopWr => phaseXStopWr s
  | .xErrRd => phaseXErrRd s
  | .xLevelRd => phaseXLevelRd s
  | .xLastRd => phaseXLastRd s
  | .xDrain => phaseXDrain s
  | .xDone => phaseXDone s
  | .cClrRd => phaseCClrRd s
  | .cClrWr => phaseCClrWr s
  | .cFlushRd => phaseCFlushRd s
  | .cFlushWr => phaseCFlushWr s
  | .cLoad => phaseCLoad s
  | .cCmdWr => phaseCCmdWr s
  | .cPoll => phaseCPoll s
  | .cResL => phaseCResL s
  | .cResH => phaseCResH s
  | .cDone => phaseCDone s

/-- One engine step under the reset input (R175, R178): a reset that is asserted takes the place of the step, otherwise
the phase steps and the countdown goes on. -/
def engineStep (s : State) : State := if resetNow s then resetEngine s else phaseStep (tick s)

/-- `n` engine steps, stopping in IDLE. -/
def runEngine : Nat → State → State
  | 0, s => s
  | n + 1, s => if s.phase = .idle then s else runEngine n (engineStep s)

/-- More steps than any state needs to reach IDLE: at most 65536 polls (CNT has 16 bits) and fewer than 1024 others
(log 13; `Laws/Engine.lean` proves that it is enough, R132 and R144 give the exact counts). -/
def maxEngineSteps : Nat := 66560

/-- The engine runs until it is back in IDLE: the request in progress ends in its response, or a reset abandons it
(R178). -/
def finishRequest (s : State) : State := runEngine maxEngineSteps s

end Sys2Proof.Machine
end

