-- ==== Sys2Proof/Machine/Command.lean ====
section
/-! DEFINITION. The meanings of the six EXEC rows (R103, R126 to R131): the Command Engine. Each is the whole request,
from its acceptance to its response. -/

namespace Sys2Proof.Machine

/-- The state in which the engine takes the next request: the request in progress has ended, for a request presented
while PHASE is not IDLE waits (R104, R182); and a reset that is asserted then comes first (R178). -/
def whenIdle (s : State) : State :=
  let s0 := finishRequest s
  if resetNow s0 then resetEngine s0 else tick s0

/-- `EXEC cmd, data` (R103): acceptance (R104, R105), then the phases until the response (R106 to R125). -/
def runExec (cmd : Byte) (data : List Byte) (s : State) : State :=
  finishRequest (acceptExec cmd data (whenIdle s))

/-- EXEC.IDLE (R128). -/
def execIdle (data : List Byte) (s : State) : Host.Outcome State Fault Refusal :=
  .next (runExec s.cfg.cmdIdle data s)

/-- EXEC.CALCCRC (R129). -/
def execCalcCrc (data : List Byte) (s : State) : Host.Outcome State Fault Refusal :=
  .next (runExec s.cfg.cmdCalcCrc data s)

/-- EXEC.TRANSCEIVE (R126). -/
def execTransceive (data : List Byte) (s : State) : Host.Outcome State Fault Refusal :=
  .next (runExec s.cfg.cmdTransceive data s)

/-- EXEC.AUTHENT (R127). -/
def execAuthent (data : List Byte) (s : State) : Host.Outcome State Fault Refusal :=
  .next (runExec s.cfg.cmdAuthent data s)

/-- EXEC.SOFTRESET (R130): the chip's command, not the engine's reset. -/
def execSoftReset (data : List Byte) (s : State) : Host.Outcome State Fault Refusal :=
  .next (runExec s.cfg.cmdSoftReset data s)

/-- EXEC.OTHER (R131): the command byte is written unchanged. -/
def execOther (cmd : Byte) (data : List Byte) (s : State) : Host.Outcome State Fault Refusal :=
  .next (runExec cmd data s)

end Sys2Proof.Machine
end

