-- ==== Sys2Proof/Machine/Crc.lean ====
section
/-! DEFINITION. The meaning of the CRC row (R134): the CRC Coprocessor Adapter. -/

namespace Sys2Proof.Machine

/-- `CRC data` (R134): acceptance (R135), then the phases until the response (R136 to R142). The adapter computes no
CRC (R145). -/
def runCrc (data : List Byte) (s : State) : State := finishRequest (acceptCrc data (whenIdle s))

/-- CRC (R134). -/
def execCrc (data : List Byte) (s : State) : Host.Outcome State Fault Refusal := .next (runCrc data s)

end Sys2Proof.Machine
end

