-- ==== Sys2Proof/Machine/Dispatch.lean ====
section
/-! DEFINITION. One arm per row of spec/opcode_table.json. -/

namespace Sys2Proof.Machine

def exec (i : Instr) (s : State) : Host.Outcome State Fault Refusal :=
  match i with
  | .execIdle data => Sys2Proof.Machine.execIdle data s
  | .execCalcCrc data => Sys2Proof.Machine.execCalcCrc data s
  | .execTransceive data => Sys2Proof.Machine.execTransceive data s
  | .execAuthent data => Sys2Proof.Machine.execAuthent data s
  | .execSoftReset data => Sys2Proof.Machine.execSoftReset data s
  | .execOther cmd data => Sys2Proof.Machine.execOther cmd data s
  | .crc data => Sys2Proof.Machine.execCrc data s
  | .busWr a v => Sys2Proof.Machine.execBusWr a v s
  | .busRd a => Sys2Proof.Machine.execBusRd a s

end Sys2Proof.Machine
end

