-- ==== Sys2Proof/Machine/Fetch.lean ====
section
/-! DEFINITION. What the block does next: it has a CFG to refuse, a reset to take, a request in progress to finish,
nothing to do, a frame to reject, or an instruction to run (R9, R24, R25, R85, R102, R178). -/

namespace Sys2Proof.Machine

/-- What comes next. -/
inductive Next where
  /-- The step has no next state. -/
  | refuse (r : Refusal)
  /-- No instruction runs: the state after the step. -/
  | settle (t : State)
  /-- Run this instruction in this state, from which its bytes have been taken. -/
  | run (i : Instr) (t : State)
  deriving DecidableEq, Repr

/-- Put the bytes after the first frame back at the head of the inbox; nothing when there are none. -/
def putBack (item : List Byte → Inbound) (more : List Byte) (rest : List Inbound) : List Inbound :=
  match more with
  | [] => rest
  | _ :: _ => item more :: rest

/-- Act on what the decoder read from the first item of the inbox. A frame that is not whole yet leaves the engine
waiting in IDLE (R70, log 6). -/
def dispatchDecoded (item : List Byte → Inbound) (rest : List Inbound) (s : State) : Decoded → Next
  | .instr i more => .run i { s with inbox := putBack item more rest }
  | .reject r more => .settle (reject r (tick { s with inbox := putBack item more rest }))
  | .reservedByte _ _ => .refuse .reservedBusByte
  | .incomplete => .settle (tick s)

/-- The engine in IDLE looks at the first item of the inbox (R24, R104, R135); without one it stays in IDLE. -/
def fetchIdle (s : State) : Next :=
  match s.inbox with
  | [] => .settle (tick s)
  | .request bytes :: rest => dispatchDecoded .request rest s (decodeRequest s.cfg bytes)
  | .access bytes :: rest => dispatchDecoded .access rest s (decodeBus bytes)

/-- What the block does next. -/
def fetch (s : State) : Next :=
  if s.cfg.legal = false then .refuse .illegalCfg
  else if resetNow s then .settle (resetEngine s)
  else if s.phase = .idle then fetchIdle s
  else .settle (finishRequest s)

/-- Present the instruction of a table word as the first thing in the inbox (see `State.withFetchWord`). -/
def presentWord (nbits w : Nat) (inbox : List Inbound) : List Inbound :=
  match tableBytes nbits w with
  | none => inbox
  | some bytes => (if nbits = 8 then .access bytes else .request bytes) :: inbox

end Sys2Proof.Machine
end

