-- ==== Sys2Proof/Machine/Step.lean ====
section
/-! DEFINITION. The step of the model: one instruction (log 3), or one of the things that happen between instructions. -/

namespace Sys2Proof.Machine

/-- One step: what `fetch` says. -/
def step (s : State) : Host.Outcome State Fault Refusal :=
  match fetch s with
  | .refuse r => .refused r
  | .settle t => .next t
  | .run i t => exec i t

/-- `s` with the instruction of a table word presented as the requester's next item, the engine in IDLE and no reset
scheduled: all it takes for the very next step to run it (log 6). -/
def State.withFetchWord (s : State) (nbits w : Nat) : State :=
  { s with phase := .idle, inbox := presentWord nbits w s.inbox, resetIn := none }

end Sys2Proof.Machine
end

