-- ==== Sys2Proof/Machine/Pseudo.lean ====
section
/-! DEFINITION. The two operations as the blocks of pseudocode of R103 and R134, line by line. The machine does not run
these: it runs the phases (R104 to R125, R135 to R142), of which R103 says that they "give the same behaviour phase by
phase and must agree with this block line for line". Statements compare the two. -/

namespace Sys2Proof.Machine

/-- `while x[IDX] < x[LEN]: MemWrite(REG_FIFO_DATA, 1, x[IN][x[IDX]]); x[IDX] <- x[IDX] + 1` (R103 line 3, R134
line c), for at most `n` passes. -/
def loadLoop : Nat → State → State
  | 0, s => s
  | n + 1, s => if moreToLoad s then loadLoop n (loadByte s) else s

/-- `repeat x[NIRQ] <- MemRead(REG_IRQ, 1); x[CNT] <- x[CNT] - 1 until ...` (R103 line 5), for at most `n` passes. -/
def pollLoop : Nat → State → State
  | 0, s => s
  | n + 1, s =>
    let s1 := pollOnce s.cfg.regIrq s
    if pollExit s1 then s1 else pollLoop n s1

/-- The poll loop of the CRC operation (R134 line e), for at most `n` passes. -/
def crcPollLoop : Nat → State → State
  | 0, s => s
  | n + 1, s =>
    let s1 := pollOnce s.cfg.regDivIrq s
    if crcPollExit s1 then s1 else crcPollLoop n s1

/-- `while x[IDX] < x[DCNT]: ...` (R103 line 7), for at most `n` passes. -/
def drainLoop : Nat → State → State
  | 0, s => s
  | n + 1, s => if moreToDrain s then drainLoop n (drainByte s) else s

/-- Line 4 of R103: start-send, for a Transceive only. -/
def pseudoStart (s : State) : State :=
  if isTransceive s then setb s.cfg.regBitFraming s.cfg.startSend s else s

/-- The inner Transceive branch of line 7 of R103: the level, the last-valid-bits field, the length, the clamp, the
drain. -/
def pseudoReceive (s : State) : State :=
  let s1 := readLast (readLevel s)
  drainLoop s1.dcnt.toNat s1

/-- Line 7 of R103 for a poll that ended within the budget. -/
def pseudoClassify (s : State) : State :=
  let s1 := readErr s
  if s1.err &&& s1.cfg.errMask = 0 then
    let s2 := setStatus s1.cfg.stOk s1
    let s3 := if noTagSeen s2 then setStatus s2.cfg.stNoTag s2 else s2
    if isTransceive s3 then pseudoReceive s3 else s3
  else s1

/-- R103: `EXEC cmd, data`, whole. -/
def pseudoExec (cmd : Byte) (data : List Byte) (s0 : State) : State :=
  -- accept, and line 1
  let s1 := acceptExec cmd data s0
  -- line 2
  let s2 := busWrite s1.cfg.regIen (s1.ien ||| s1.cfg.ienOr) s1
  let s3 := clrb s2.cfg.regIrq s2.cfg.irqClear s2
  let s4 := setb s3.cfg.regFifoLevel s3.cfg.fifoFlush s3
  -- line 3
  let s5 := busWrite s4.cfg.regCommand s4.cfg.cmdIdle s4
  let s6 := loadLoop s5.len.toNat s5
  let s7 := busWrite s6.cfg.regCommand s6.cmd s6
  -- line 4
  let s8 := pseudoStart s7
  -- line 5
  let s9 := pollLoop s8.cfg.pollBudget.toNat (loadCnt s8.cfg.pollBudget s8)
  -- line 6
  let s10 := clrb s9.cfg.regBitFraming s9.cfg.startSend s9
  -- line 7
  let s11 := if s10.cnt ≠ 0 then pseudoClassify s10 else s10
  -- line 8
  respond (.exec s11.status (payload s11) s11.vb s11.bitLen) s11

/-- R134: `CRC data`, whole. -/
def pseudoCrc (data : List Byte) (s0 : State) : State :=
  let s1 := acceptCrc data s0
  -- line a
  let s2 := clrb s1.cfg.regDivIrq s1.cfg.crcDone s1
  -- line b
  let s3 := setb s2.cfg.regFifoLevel s2.cfg.fifoFlush s2
  -- line c
  let s4 := loadLoop s3.len.toNat s3
  -- line d
  let s5 := busWrite s4.cfg.regCommand s4.cfg.cmdCalcCrc s4
  -- line e
  let s6 := crcPollLoop s5.cfg.crcBudget.toNat (loadCnt s5.cfg.crcBudget s5)
  -- line f
  let s7 := readCrcH (readCrcL s6)
  respond (.crc s7.crcL s7.crcH) s7

end Sys2Proof.Machine
end

