-- ==== Sys2Proof/Machine/Text.lean ====
section
/-! DEFINITION. The textual syntax of requests (R88), the two pseudo-instructions (R89) and the notation of a bus
transaction (R88). The spec uses this notation in its examples; the engine never sees it. A line is a list of
characters. -/

namespace Sys2Proof.Machine

/-! ## Two-digit hexadecimal bytes -/

/-- The sixteen digits, in the capitals the spec writes. -/
def hexDigits : List Char := ['0', '1', '2', '3', '4', '5', '6', '7', '8', '9', 'A', 'B', 'C', 'D', 'E', 'F']

/-- The digit of a value below 16. -/
def hexDigit (n : Nat) : Char := hexDigits[n]?.getD '0'

/-- The value of a digit. -/
def hexValue (ch : Char) : Option Nat := hexDigits.findIdx? (· == ch)

/-- "`<byte>` is a two-digit hexadecimal number without prefix" (R88). -/
def byteText (b : Byte) : List Char := [hexDigit (b.toNat / 16), hexDigit (b.toNat % 16)]

/-- Read a two-digit hexadecimal byte. -/
def readByte (hi lo : Char) : Option Byte :=
  match hexValue hi, hexValue lo with
  | some h, some l => some (BitVec.ofNat 8 (16 * h + l))
  | _, _ => none

/-- The data bytes of a line: each preceded by one space; nothing for an empty list (R88). -/
def dataText (data : List Byte) : List Char := data.flatMap fun b => ' ' :: byteText b

/-- Read the data bytes of a line to its end. -/
def readData : List Char → Option (List Byte)
  | [] => some []
  | ' ' :: hi :: lo :: rest =>
    match readByte hi lo, readData rest with
    | some b, some data => some (b :: data)
    | _, _ => none
  | _ => none

/-! ## Requests -/

/-- The names of the five commands (R88). -/
def nameIdle : List Char := ['I', 'D', 'L', 'E']
/-- `CALCCRC`. -/
def nameCalcCrc : List Char := ['C', 'A', 'L', 'C', 'C', 'R', 'C']
/-- `TRANSCEIVE`. -/
def nameTransceive : List Char := ['T', 'R', 'A', 'N', 'S', 'C', 'E', 'I', 'V', 'E']
/-- `AUTHENT`. -/
def nameAuthent : List Char := ['A', 'U', 'T', 'H', 'E', 'N', 'T']
/-- `SOFTRESET`. -/
def nameSoftReset : List Char := ['S', 'O', 'F', 'T', 'R', 'E', 'S', 'E', 'T']

/-- "`<cmd>` is a number or one of the names ..., which stand for the CFG fields `CMD_IDLE` and so on" (R88); a number is
a two-digit hexadecimal byte, as in the spec's `EXEC 04, 12 34`. -/
def readCommand (c : Cfg) (w : List Char) : Option Byte :=
  if w = nameIdle then some c.cmdIdle
  else if w = nameCalcCrc then some c.cmdCalcCrc
  else if w = nameTransceive then some c.cmdTransceive
  else if w = nameAuthent then some c.cmdAuthent
  else if w = nameSoftReset then some c.cmdSoftReset
  else match w with
    | [hi, lo] => readByte hi lo
    | _ => none

/-- The text after a prefix, if the line begins with it. -/
def afterPrefix : List Char → List Char → Option (List Char)
  | [], line => some line
  | _ :: _, [] => none
  | p :: ps, ch :: rest => if p = ch then afterPrefix ps rest else none

/-- `EXEC `. -/
def wordExec : List Char := ['E', 'X', 'E', 'C', ' ']
/-- `CRC`. -/
def wordCrc : List Char := ['C', 'R', 'C']

/-- `EXEC <cmd>, <byte> <byte> ...` (R88), read after `EXEC `. -/
def readExec (c : Cfg) (line : List Char) : Option Instr :=
  match readCommand c (line.takeWhile (· ≠ ',')), line.dropWhile (· ≠ ',') with
  | some cmd, ',' :: rest => (readData rest).map (selectExec c cmd)
  | _, _ => none

/-- Read one request line (R88) or pseudo-instruction (R89: `TRANSCEIVE <bytes>` is `EXEC TRANSCEIVE, <bytes>`,
`AUTHENT <bytes>` is `EXEC AUTHENT, <bytes>`). -/
def assemble (c : Cfg) (line : List Char) : Option Instr :=
  match afterPrefix wordExec line with
  | some rest => readExec c rest
  | none =>
    match afterPrefix wordCrc line with
    | some rest => (readData rest).map .crc
    | none =>
      match afterPrefix nameTransceive line with
      | some rest => (readData rest).map (selectExec c c.cmdTransceive)
      | none =>
        match afterPrefix nameAuthent line with
        | some rest => (readData rest).map (selectExec c c.cmdAuthent)
        | none => none

/-- The line of a request (R88); a bus primitive is no request and has none (R102). -/
def requestText : Instr → Option (List Char)
  | .execIdle d => some (wordExec ++ nameIdle ++ ',' :: dataText d)
  | .execCalcCrc d => some (wordExec ++ nameCalcCrc ++ ',' :: dataText d)
  | .execTransceive d => some (wordExec ++ nameTransceive ++ ',' :: dataText d)
  | .execAuthent d => some (wordExec ++ nameAuthent ++ ',' :: dataText d)
  | .execSoftReset d => some (wordExec ++ nameSoftReset ++ ',' :: dataText d)
  | .execOther cmd d => some (wordExec ++ byteText cmd ++ ',' :: dataText d)
  | .crc d => some (wordCrc ++ dataText d)
  | .busWr _ _ => none
  | .busRd _ => none

/-! ## Bus transactions -/

/-- The name of a register of CFG without its `REG_` (R88). -/
def registerText (c : Cfg) (a : BusAddr) : Option (List Char) :=
  if a = busAddr c.regCommand then some ['C', 'O', 'M', 'M', 'A', 'N', 'D']
  else if a = busAddr c.regIen then some ['I', 'E', 'N']
  else if a = busAddr c.regIrq then some ['I', 'R', 'Q']
  else if a = busAddr c.regDivIrq then some ['D', 'I', 'V', 'I', 'R', 'Q']
  else if a = busAddr c.regError then some ['E', 'R', 'R', 'O', 'R']
  else if a = busAddr c.regFifoData then some ['F', 'I', 'F', 'O', '_', 'D', 'A', 'T', 'A']
  else if a = busAddr c.regFifoLevel then some ['F', 'I', 'F', 'O', '_', 'L', 'E', 'V', 'E', 'L']
  else if a = busAddr c.regControl then some ['C', 'O', 'N', 'T', 'R', 'O', 'L']
  else if a = busAddr c.regBitFraming then some ['B', 'I', 'T', '_', 'F', 'R', 'A', 'M', 'I', 'N', 'G']
  else if a = busAddr c.regCrcL then some ['C', 'R', 'C', '_', 'L']
  else if a = busAddr c.regCrcH then some ['C', 'R', 'C', '_', 'H']
  else none

/-- `W NAME=vv` and `R NAME->vv` (R88). -/
def Txn.text (c : Cfg) : Txn → Option (List Char)
  | .write a v => (registerText c a).map fun name => 'W' :: ' ' :: name ++ '=' :: byteText v
  | .read a v => (registerText c a).map fun name => 'R' :: ' ' :: name ++ '-' :: '>' :: byteText v

end Sys2Proof.Machine
end

