-- ==== Sys2Proof/Safety.lean ====
section
/-! DEFINITION. The terms the statements are made in: a state that is ready for a request, the range of a response
(R76), the bus accesses the block allows itself (R52, R55), and the invariant of the engine. -/

namespace Sys2Proof.Machine

/-- The engine is in IDLE under a legal CFG and no reset is scheduled: a request presented now is accepted and runs to
its response (R9, R104, R135, R178). -/
def State.Ready (s : State) : Prop := s.phase = .idle ∧ s.resetIn = none ∧ s.cfg.legal = true

/-- The command byte a request has the engine write: that of its row (R83), the given byte for `EXEC.OTHER` (R131),
`CMD_CALCCRC` for CRC (R135). A bus primitive issues no command. -/
def commandOf (c : Cfg) : Instr → Byte
  | .execIdle _ => c.cmdIdle
  | .execCalcCrc _ => c.cmdCalcCrc
  | .execTransceive _ => c.cmdTransceive
  | .execAuthent _ => c.cmdAuthent
  | .execSoftReset _ => c.cmdSoftReset
  | .execOther cmd _ => cmd
  | .crc _ => c.cmdCalcCrc
  | .busWr _ _ | .busRd _ => c.cmdIdle

/-- Neither of the two commands the engine treats in a way of its own (R105). -/
def plainCommand (c : Cfg) (cmd : Byte) : Prop := cmd ≠ c.cmdAuthent ∧ cmd ≠ c.cmdTransceive

/-- Every register of R21 at its reset value of R43, the two buffers aside, which R43 leaves unspecified. -/
def State.RegistersReset (s : State) : Prop :=
  s.phase = .idle ∧ s.op.code = 0 ∧ s.cmd = 0 ∧ s.len = 0 ∧ s.idx = 0 ∧ s.ien = 0 ∧ s.wait = 0 ∧ s.cnt = 0 ∧
  s.t = 0 ∧ s.nirq = 0 ∧ s.err = 0 ∧ s.lvl = 0 ∧ s.vb = 0 ∧ s.dcnt = 0 ∧ s.bitLen = 0 ∧ s.olen = 0 ∧ s.crcL = 0 ∧
  s.crcH = 0 ∧ s.status = s.cfg.stErr

/-- The ranges of R76, with the empty result that the cause table gives every Error (R151). -/
def Response.InRange (c : Cfg) : Response → Prop
  | .exec status payload vb bitLen =>
    (status = c.stOk ∨ status = c.stNoTag ∨ status = c.stErr) ∧ payload.length ≤ 16 ∧
    (-7 : Int) ≤ bitLen.toInt ∧ bitLen.toInt ≤ 2040 ∧
    (status = c.stErr → payload = [] ∧ vb = 0 ∧ bitLen = 0)
  | .crc _ _ => True
  | .reject _ => True

/-- A transaction at one of the eleven registers of CFG (R52, R99), which is not a reserved one (R55). -/
def Txn.Configured (c : Cfg) (x : Txn) : Prop :=
  x.addr ∈ c.registers.map busAddr ∧ c.reserved.contains x.addr = false

/-- The masks in use are those of the command (R105). -/
def masksSelected (s : State) : Prop := s.ien = (masksOf s.cfg s.cmd).1 ∧ s.wait = (masksOf s.cfg s.cmd).2

/-- The result registers are as acceptance left them (R104): Error, and nothing read. -/
def resultCleared (s : State) : Prop := s.status = s.cfg.stErr ∧ s.olen = 0 ∧ s.vb = 0 ∧ s.bitLen = 0

/-- An EXEC is in progress and has set no result yet. -/
def execPending (s : State) : Prop := s.op = .exec ∧ masksSelected s ∧ resultCleared s

/-- A Transceive whose poll ended in time and whose error register showed no masked bit (R119 to R121). -/
def receiving (s : State) : Prop :=
  s.op = .exec ∧ masksSelected s ∧ s.cmd = s.cfg.cmdTransceive ∧ s.status = causeTable s ∧ s.status ≠ s.cfg.stErr

/-- A CRC is in progress (R135). -/
def crcPending (s : State) : Prop := s.op = .crc ∧ s.cmd = s.cfg.cmdCalcCrc ∧ s.ien = 0 ∧ s.wait = 0

/-- What holds in each phase (R26, R27, R34 to R38, R110, R113, R123, R124, R133). -/
def State.phaseInv (s : State) : Prop :=
  match s.phase with
  | .idle => True
  | .xIenWr | .xIrqRd | .xIrqWr | .xFlushRd | .xFlushWr | .xIdleWr => execPending s ∧ s.idx = 0
  | .xLoad => execPending s ∧ s.idx.toNat < s.len.toNat
  | .xCmdWr => execPending s ∧ s.idx = s.len
  | .xStartRd | .xStartWr => execPending s ∧ s.idx = s.len ∧ s.cmd = s.cfg.cmdTransceive
  | .xPoll => execPending s ∧ s.cnt ≠ 0 ∧ s.cnt.toNat ≤ s.cfg.pollBudget.toNat
  | .xStopRd | .xStopWr => execPending s ∧ s.cnt.toNat < s.cfg.pollBudget.toNat ∧ pollExit s = true
  | .xErrRd =>
    execPending s ∧ s.cnt ≠ 0 ∧ s.cnt.toNat < s.cfg.pollBudget.toNat ∧ (timerSeen s = true ∨ waitSeen s = true)
  | .xLevelRd | .xLastRd => receiving s ∧ s.olen = 0 ∧ s.vb = 0 ∧ s.bitLen = 0
  | .xDrain =>
    receiving s ∧ s.dcnt = drainCount s.cfg.maxLen s.lvl ∧ s.bitLen.toInt = exactBitLen s.lvl s.vb ∧
    s.idx.toNat < s.dcnt.toNat ∧ s.olen.toNat = s.idx.toNat
  | .xDone =>
    s.op = .exec ∧ masksSelected s ∧ s.status = causeTable s ∧
    (if s.status ≠ s.cfg.stErr ∧ s.cmd = s.cfg.cmdTransceive
      then s.dcnt = drainCount s.cfg.maxLen s.lvl ∧ s.bitLen.toInt = exactBitLen s.lvl s.vb ∧ s.olen = s.dcnt
      else s.olen = 0 ∧ s.vb = 0 ∧ s.bitLen = 0)
  | .cClrRd | .cClrWr | .cFlushRd | .cFlushWr => crcPending s ∧ s.idx = 0
  | .cLoad => crcPending s ∧ s.idx.toNat < s.len.toNat
  | .cCmdWr => crcPending s ∧ s.idx = s.len
  | .cPoll => crcPending s ∧ s.cnt ≠ 0 ∧ s.cnt.toNat ≤ s.cfg.crcBudget.toNat
  | .cResL | .cResH | .cDone => crcPending s ∧ crcPollExit s = true

/-- The invariant of the block: a legal CFG, the register space in canonical form, the registers in the ranges of their
rules (R35 to R38), what holds in the current phase, and every response so far in range. -/
def State.Inv (s : State) : Prop :=
  s.cfg.legal = true ∧ s.mem.wf = true ∧
  (s.status = s.cfg.stOk ∨ s.status = s.cfg.stNoTag ∨ s.status = s.cfg.stErr) ∧
  s.dcnt.toNat ≤ 16 ∧ s.olen.toNat ≤ 16 ∧ (-7 : Int) ≤ s.bitLen.toInt ∧ s.bitLen.toInt ≤ 2040 ∧
  s.phaseInv ∧ ∀ r ∈ s.responses, r.InRange s.cfg

end Sys2Proof.Machine
end

