-- ==== Sys2Proof/Certificates/Slice0/Obligations.lean ====
section
/-! DEFINITION. The statements for the provers. Each docstring names the rule it formalises, or the log entry of a choice
of the model it rests on. -/

open Sys2Proof Sys2Proof.Machine

/-! ## Encoding -/

/-- R83's rows and R80, R81's address bytes on words written out by hand: a header `H = OP << 16 | CMD << 8 | LEN` whose
data bytes are zero, address bytes, three frames and one bus access with their data, and the beginning of a frame, which
is incomplete. The opcodes are those of the default CFG, which are PRESUMED (log 2). -/
def Obligations.SampleWordsDecode : Prop :=
  decodeTableWord 24 0x000000 = some (.execIdle []) ∧
  decodeTableWord 24 0x000302 = some (.execCalcCrc [0, 0]) ∧
  decodeTableWord 24 0x000C01 = some (.execTransceive [0]) ∧
  decodeTableWord 24 0x000E00 = some (.execAuthent []) ∧
  decodeTableWord 24 0x000F00 = some (.execSoftReset []) ∧
  decodeTableWord 24 0x000401 = some (.execOther 0x04 [0]) ∧
  decodeTableWord 24 0x010001 = some (.crc [0]) ∧
  decodeTableWord 24 0x010501 = none ∧
  decodeTableWord 24 0x020000 = none ∧
  decodeTableWord 8 0x12 = some (.busWr 0x09 0) ∧
  decodeTableWord 8 0x88 = some (.busRd 0x04) ∧
  decodeTableWord 8 0x89 = none ∧
  decodeRequest Cfg.default [0x00, 0x0C, 0x01, 0x26, 0x01] = .instr (.execTransceive [0x26]) [0x01] ∧
  decodeRequest Cfg.default [0x01, 0x00, 0x02, 0x30, 0x04] = .instr (.crc [0x30, 0x04]) [] ∧
  decodeRequest Cfg.default [0x00, 0x0E, 0x02, 0x60, 0x04] = .instr (.execAuthent [0x60, 0x04]) [] ∧
  decodeRequest Cfg.default [0x01, 0x00, 0x02, 0x30] = .incomplete ∧
  decodeBus [0x12, 0x26] = .instr (.busWr 0x09 0x26) []

/-- R71 to R75, R83: decoding the frame of a well-formed request gives the request back, with every data byte and, for
`EXEC.OTHER`, the command byte, under every CFG, and leaves the bytes after the frame. -/
def Obligations.DecodeOfEncodedRequest : Prop :=
  ∀ (c : Cfg) (i : Instr) (rest : List Byte), i.isRequest = true → i.wellFormed c = true →
    decodeRequest c (encode c i ++ rest) = .instr i rest

/-- R80, R81, R95, R96: decoding the bus bytes of a primitive gives the primitive back, with its six address bits and
its data byte. -/
def Obligations.DecodeOfEncodedBusAccess : Prop :=
  ∀ (c : Cfg) (i : Instr) (rest : List Byte), i.isRequest = false →
    decodeBus (encode c i ++ rest) = .instr i rest

/-- R71, R72, R87: what the decoder accepts is well formed, and its encoding followed by the bytes left over is exactly
what was read: no bit of a frame or of an address byte is dropped. -/
def Obligations.EncodeOfDecoded : Prop :=
  ∀ (c : Cfg) (bytes : List Byte) (i : Instr) (rest : List Byte),
    (decodeRequest c bytes = .instr i rest →
      i.isRequest = true ∧ i.wellFormed c = true ∧ encode c i ++ rest = bytes) ∧
    (decodeBus bytes = .instr i rest → i.isRequest = false ∧ encode c i ++ rest = bytes)

/-- R83 with R75 and R84: on the header `H` of a whole frame, each row is selected by `H & mask = match`, the specific
EXEC rows before the catch-all `EXEC.OTHER`; with another CFG only the five constants change. The order among the five
named rows, which R84 does not give, is the table's (log 14); the constants of the default CFG are PRESUMED (log 2). -/
def Obligations.RowsFollowMaskAndMatch : Prop :=
  ∀ (c : Cfg) (op cmd len : Byte) (data rest : List Byte), data.length = len.toNat →
    (let h := headerWord op cmd len
     decodeRequest c (op :: cmd :: len :: (data ++ rest)) =
       if h &&& 0xFFFF00 = headerWord 0 c.cmdIdle 0 then .instr (.execIdle data) rest
       else if h &&& 0xFFFF00 = headerWord 0 c.cmdCalcCrc 0 then .instr (.execCalcCrc data) rest
       else if h &&& 0xFFFF00 = headerWord 0 c.cmdTransceive 0 then .instr (.execTransceive data) rest
       else if h &&& 0xFFFF00 = headerWord 0 c.cmdAuthent 0 then .instr (.execAuthent data) rest
       else if h &&& 0xFFFF00 = headerWord 0 c.cmdSoftReset 0 then .instr (.execSoftReset data) rest
       else if h &&& 0xFF0000 = 0x000000 then .instr (.execOther cmd data) rest
       else if h &&& 0xFFFF00 = 0x010000 then .instr (.crc data) rest
       else .reject (if op = 0x01 then .crcCmd else .reservedOp) rest) ∧
    headerWord 0 Cfg.default.cmdIdle 0 = 0x000000 ∧ headerWord 0 Cfg.default.cmdCalcCrc 0 = 0x000300 ∧
    headerWord 0 Cfg.default.cmdTransceive 0 = 0x000C00 ∧ headerWord 0 Cfg.default.cmdAuthent 0 = 0x000E00 ∧
    headerWord 0 Cfg.default.cmdSoftReset 0 = 0x000F00 ∧
    ∀ (ab v : Byte),
      (ab &&& 0x81 = 0x00 → decodeBus (ab :: v :: rest) = .instr (.busWr (ab.extractLsb' 1 6) v) rest) ∧
      (ab &&& 0x81 = 0x80 → decodeBus (ab :: rest) = .instr (.busRd (ab.extractLsb' 1 6)) rest)

/-- R80, R81 (and R51): bit by bit, the address bytes of a write and of a read; the two top bits of an address never
reach the bus, so addresses that differ only there give the same bytes and the same delivery. A write's data byte follows
its address byte. -/
def Obligations.AddressBytesBitByBit : Prop :=
  (∀ a : Byte,
    addrByteWr a = (a <<< 1) &&& 0x7F ∧ (addrByteWr a).getLsbD 7 = false ∧
    (addrByteWr a).extractLsb' 1 6 = a.extractLsb' 0 6 ∧ (addrByteWr a).getLsbD 0 = false ∧
    addrByteRd a = ((a <<< 1) &&& 0x7F) ||| 0x80 ∧ (addrByteRd a).getLsbD 7 = true ∧
    (addrByteRd a).extractLsb' 1 6 = a.extractLsb' 0 6 ∧ (addrByteRd a).getLsbD 0 = false) ∧
  addrByteWr 0x09 = 0x12 ∧ addrByteWr 0x22 = 0x44 ∧ addrByteRd 0x04 = 0x88 ∧ addrByteRd 0x21 = 0xC2 ∧
  (∀ (a : BusAddr) (v : Byte), (Txn.write a v).wire = [addrByteWr (a.setWidth 8), v] ∧
    (Txn.read a v).wire = [addrByteRd (a.setWidth 8)]) ∧
  ∀ (a b v : Byte) (s : State), a.extractLsb' 0 6 = b.extractLsb' 0 6 →
    addrByteWr a = addrByteWr b ∧ addrByteRd a = addrByteRd b ∧ busWrite a v s = busWrite b v s ∧
    busRead a s = busRead b s

/-- R56 (d), R86, R95, R96: the bytes a transaction puts on the bus begin with its address byte, whose bit 0 is 0; they
decode to the transaction's primitive. -/
def Obligations.WireBytesOfTransactions : Prop :=
  ∀ (a : BusAddr) (v : Byte) (rest : List Byte),
    (Txn.write a v).wire = [(0#1 ++ a ++ 0#1 : BitVec 8), v] ∧
    (Txn.read a v).wire = [(1#1 ++ a ++ 0#1 : BitVec 8)] ∧
    decodeBus ((Txn.write a v).wire ++ rest) = .instr (.busWr a v) rest ∧
    decodeBus ((Txn.read a v).wire ++ rest) = .instr (.busRd a) rest

/-- R77, R78, R79: the three response frames. BITLEN stands low byte first, and the two bytes are its sign extension. -/
def Obligations.ResponseFramesLayout : Prop :=
  (∀ (st : BitVec 2) (p : List Byte) (vb : BitVec 3) (bl : BitVec 12), p.length ≤ 16 →
    ∃ lo hi n : Byte,
      (Response.exec st p vb bl).frame = [0x00, st.setWidth 8, n, vb.setWidth 8, lo, hi] ++ p ∧
      (Response.exec st p vb bl).frame.length = 6 + p.length ∧
      n.toNat = p.length ∧ (hi ++ lo : BitVec 16).toInt = bl.toInt) ∧
  (Response.exec 0 [0x5A] 1 (-7)).frame = [0x00, 0x00, 0x01, 0x01, 0xF9, 0xFF, 0x5A] ∧
  (Response.exec 1 [] 0 144).frame = [0x00, 0x01, 0x00, 0x00, 0x90, 0x00] ∧
  (∀ l h : Byte, (Response.crc l h).frame = [0x01, l, h]) ∧
  (Response.reject .reservedOp).frame = [0xFF, 0x01] ∧ (Response.reject .crcCmd).frame = [0xFF, 0x02]

/-- R88, R89: reading the line written for a well-formed request gives the request; the two pseudo-instructions stand
for their EXEC requests. That a number is two hexadecimal digits is read from the spec's examples (log 18). -/
def Obligations.AssemblerReadsRequestLines : Prop :=
  ∀ (c : Cfg) (i : Instr) (line : List Char), i.wellFormed c = true → requestText i = some line →
    assemble c line = some i ∧
    ∀ d : List Byte,
      assemble c (nameTransceive ++ dataText d) = assemble c (wordExec ++ nameTransceive ++ ',' :: dataText d) ∧
      assemble c (nameAuthent ++ dataText d) = assemble c (wordExec ++ nameAuthent ++ ',' :: dataText d)

/-! ## Configuration, reset -/

/-- R9: what a legal CFG is, clause by clause. That a state with any other CFG has no step, refused under the name
`illegalCfg` before anything else, is the model's form of "a model refuses to be instantiated with any other" (log 10). -/
def Obligations.IllegalCfgIsRefused : Prop :=
  (∀ c : Cfg, c.legal = true ↔
    (1 ≤ c.pollBudget.toNat ∧ c.pollBudget.toNat ≤ 65535 ∧ 1 ≤ c.crcBudget.toNat ∧ c.crcBudget.toNat ≤ 65535) ∧
    (1 ≤ c.maxLen.toNat ∧ c.maxLen.toNat ≤ 16) ∧
    (∀ a ∈ c.registers, a.toNat ≤ 63 ∧ busAddr a ∉ c.reserved) ∧
    c.registers.Pairwise (· ≠ ·) ∧
    c.cmdAuthent ≠ c.cmdTransceive ∧
    (c.irqTimer ≠ 0 ∧ c.startSend ≠ 0 ∧ c.fifoFlush ≠ 0 ∧ c.crcDone ≠ 0 ∧ c.lastBitsLsb ≤ 5) ∧
    (c.stOk ≠ c.stNoTag ∧ c.stOk ≠ c.stErr ∧ c.stNoTag ≠ c.stErr)) ∧
  ∀ s : State, step s = .refused .illegalCfg ↔ s.cfg.legal = false

/-- R43: after reset every register has its value of the table (IN and OUT, which R43 leaves unspecified, aside), for the
state right after reset and for a reset of any state, which leaves CFG as it is. -/
def Obligations.ResetLeavesTheTable : Prop :=
  State.reset.RegistersReset ∧ State.reset.status = 2 ∧
  ∀ s : State, (resetEngine s).RegistersReset ∧ (resetEngine s).cfg = s.cfg

/-- R175, R176, R177, R178: a reset asserted in any phase puts every register in the state of R43; CFG stays, no bus
transaction is made, no response is emitted, what was presented stays presented, no answer is used up, and the engine is
ready. The reset input as a field, and that it takes the place of a step, is log 8; the environment's side, the history
and the inbox are the model's own fields (log 4, log 5, log 6). -/
def Obligations.ResetInAnyPhase : Prop :=
  ∀ s : State, s.cfg.legal = true → s.resetIn = some 0 →
    ∃ t, step s = .next t ∧ t.RegistersReset ∧ t.Ready ∧ t.cfg = s.cfg ∧ t.bus = s.bus ∧ t.mem = s.mem ∧
      t.responses = s.responses ∧ t.inbox = s.inbox ∧ t.answers = s.answers ∧ t.reads = s.reads

/-- R178: a reset `k` engine steps into a request abandons it, whatever the request: the transactions of those `k` steps
stay made, none follows, and no response is emitted. -/
def Obligations.ResetAbandonsTheRequest : Prop :=
  (∀ (k : Nat) (s : State), s.cfg.legal = true → s.resetIn = some k → (phaseStep^[k] s).phase ≠ .idle →
    ∃ t, step s = .next t ∧ t.RegistersReset ∧ t.bus = (phaseStep^[k] s).bus ∧ t.responses = s.responses) ∧
  (∀ (k : Nat) (i : Instr) (s u : State), i.isRequest = true → s.phase = .idle → s.resetIn = some (k + 1) →
    u = (if i.isExec then acceptExec (commandOf s.cfg i) i.data s else acceptCrc i.data s) →
    (phaseStep^[k] u).phase ≠ .idle →
    ∃ t, exec i s = .next t ∧ t.RegistersReset ∧ t.bus = (phaseStep^[k] u).bus ∧ t.responses = s.responses)

/-! ## The step of the block -/

/-- R24, R70, R104, R135 (and R102 for the requester's own accesses): when the bytes presented first decode to an
instruction, the step in IDLE is `exec` of it in the state from which its bytes are taken. The model's choices here: the
inbox (log 6), one step as a whole request (log 3), and the requester's accesses, which R102 says are no engine
operations, as instructions of the block's step (log 7). -/
def Obligations.StepRunsDecodedInstruction : Prop :=
  ∀ (s : State) (bytes : List Byte) (rest : List Inbound) (i : Instr) (more : List Byte),
    s.cfg.legal = true → s.resetIn ≠ some 0 → s.phase = .idle →
    (s.inbox = .request bytes :: rest → decodeRequest s.cfg bytes = .instr i more →
      step s = exec i { s with inbox := putBack .request more rest }) ∧
    (s.inbox = .access bytes :: rest → decodeBus bytes = .instr i more →
      step s = exec i { s with inbox := putBack .access more rest })

/-- The model's fetch of a table word (log 6; default CFG, log 2): the step after `withFetchWord` is `exec` of the instruction
the decoder reads from the word, in the same state with the engine in IDLE and no reset scheduled. -/
def Obligations.FetchWordRunsItsInstruction : Prop :=
  ∀ (s : State) (nbits w : Nat) (i : Instr), s.cfg = Cfg.default → decodeTableWord nbits w = some i →
    step (s.withFetchWord nbits w) = exec i { s with phase := .idle, resetIn := none }

/-- R85, R156: an illegal frame is consumed whole with its data bytes and answered by a REJECT with its reason; the bus,
every register and everything else stay as they are, and the engine stays in IDLE. There are no other illegal frames. -/
def Obligations.IllegalFrameIsRejected : Prop :=
  ∀ (s : State) (op cmd len : Byte) (data more : List Byte) (rest : List Inbound), s.Ready →
    data.length = len.toNat → s.inbox = .request (op :: cmd :: len :: (data ++ more)) :: rest →
    (op ≠ 0x00 → op ≠ 0x01 →
      step s = .next { s with inbox := putBack .request more rest,
                              responses := s.responses ++ [.reject .reservedOp] }) ∧
    (op = 0x01 → cmd ≠ 0x00 →
      step s = .next { s with inbox := putBack .request more rest,
                              responses := s.responses ++ [.reject .crcCmd] }) ∧
    (op = 0x00 ∨ (op = 0x01 ∧ cmd = 0x00) →
      ∃ i, decodeRequest s.cfg (op :: cmd :: len :: (data ++ more)) = .instr i more) ∧
    (Response.reject .reservedOp).frame = [0xFF, 0x01] ∧ (Response.reject .crcCmd).frame = [0xFF, 0x02]

/-- R25 and the model's reading of a frame that is not whole (log 6): in IDLE with nothing presented, or only the
beginning of a frame, nothing changes. -/
def Obligations.NothingPresentedNothingHappens : Prop :=
  ∀ (s : State) (bytes : List Byte) (rest : List Inbound), s.Ready →
    (s.inbox = [] → step s = .next s) ∧
    (s.inbox = .request bytes :: rest → bytes.length < 3 → step s = .next s) ∧
    (∀ op cmd len body, bytes = op :: cmd :: len :: body → body.length < len.toNat →
      s.inbox = .request bytes :: rest → step s = .next s)

/-- R86 (log 11): an address byte with bit 0 set, which the engine never emits, is refused by name. -/
def Obligations.ReservedAddressByteIsRefused : Prop :=
  ∀ (s : State) (ab : Byte) (more : List Byte) (rest : List Inbound), s.Ready →
    s.inbox = .access (ab :: more) :: rest → ab.getLsbD 0 = true → step s = .refused .reservedBusByte

/-- R104, R182: a request presented while the engine is busy waits. That one step finishes the whole request in progress
is the model's choice (log 3; R25's step is one phase): it gives exactly one response and takes nothing from the
requester, and a request that runs then runs from the state so reached. -/
def Obligations.RequestWaitsWhileBusy : Prop :=
  ∀ s : State, s.cfg.legal = true → s.resetIn = none → s.phase ≠ .idle →
    (∃ t r, step s = .next t ∧ t.Ready ∧ t.inbox = s.inbox ∧ t.responses = s.responses ++ [r] ∧
      ∀ i : Instr, i.isRequest = true → exec i s = exec i t)

/-! ## The phases -/

/-- R24: the successor of every phase, the conditions on the register values after the step's own writes, and of the two
acceptances. -/
def Obligations.PhaseSuccessors : Prop :=
  (∀ (s : State) (cmd : Byte) (d : List Byte),
    (acceptExec cmd d s).phase = .xIenWr ∧ (acceptCrc d s).phase = .cClrRd ∧ (∀ r, (reject r s).phase = s.phase)) ∧
  ∀ s t : State, t = phaseStep s →
    t.phase = match s.phase with
      | .idle => .idle
      | .xIenWr => .xIrqRd
      | .xIrqRd => .xIrqWr
      | .xIrqWr => .xFlushRd
      | .xFlushRd => .xFlushWr
      | .xFlushWr => .xIdleWr
      | .xIdleWr => if t.len.toNat > 0 then .xLoad else .xCmdWr
      | .xLoad => if t.idx.toNat < t.len.toNat then .xLoad else .xCmdWr
      | .xCmdWr => if t.cmd = t.cfg.cmdTransceive then .xStartRd else .xPoll
      | .xStartRd => .xStartWr
      | .xStartWr => .xPoll
      | .xPoll =>
        if t.cnt = 0 ∨ t.nirq &&& t.cfg.irqTimer ≠ 0 ∨ t.nirq &&& t.wait ≠ 0 then .xStopRd else .xPoll
      | .xStopRd => .xStopWr
      | .xStopWr => if t.cnt = 0 then .xDone else .xErrRd
      | .xErrRd =>
        if t.err &&& t.cfg.errMask ≠ 0 then .xDone
        else if t.cmd = t.cfg.cmdTransceive then .xLevelRd else .xDone
      | .xLevelRd => .xLastRd
      | .xLastRd => .xDrain
      | .xDrain => if t.idx.toNat < t.dcnt.toNat then .xDrain else .xDone
      | .xDone => .idle
      | .cClrRd => .cClrWr
      | .cClrWr => .cFlushRd
      | .cFlushRd => .cFlushWr
      | .cFlushWr => if t.len.toNat > 0 then .cLoad else .cCmdWr
      | .cLoad => if t.idx.toNat < t.len.toNat then .cLoad else .cCmdWr
      | .cCmdWr => .cPoll
      | .cPoll => if t.cnt = 0 ∨ t.nirq &&& t.cfg.crcDone ≠ 0 then .cResL else .cPoll
      | .cResL => .cResH
      | .cResH => .cDone
      | .cDone => .idle

/-- R25 with the Txn column of R23: the step of a phase makes exactly the one transaction its rule gives, or none. -/
def Obligations.PhaseTransactions : Prop :=
  ∀ s : State, (phaseStep s).bus = s.bus ++ match s.phase with
    | .idle | .xDone | .cDone => []
    | .xIenWr => [.write (busAddr s.cfg.regIen) (s.ien ||| s.cfg.ienOr)]
    | .xIrqRd => [.read (busAddr s.cfg.regIrq) (answer s)]
    | .xIrqWr => [.write (busAddr s.cfg.regIrq) (s.t &&& ~~~s.cfg.irqClear)]
    | .xFlushRd => [.read (busAddr s.cfg.regFifoLevel) (answer s)]
    | .xFlushWr => [.write (busAddr s.cfg.regFifoLevel) (s.t ||| s.cfg.fifoFlush)]
    | .xIdleWr => [.write (busAddr s.cfg.regCommand) s.cfg.cmdIdle]
    | .xLoad => [.write (busAddr s.cfg.regFifoData) (inByte s)]
    | .xCmdWr => [.write (busAddr s.cfg.regCommand) s.cmd]
    | .xStartRd => [.read (busAddr s.cfg.regBitFraming) (answer s)]
    | .xStartWr => [.write (busAddr s.cfg.regBitFraming) (s.t ||| s.cfg.startSend)]
    | .xPoll => [.read (busAddr s.cfg.regIrq) (answer s)]
    | .xStopRd => [.read (busAddr s.cfg.regBitFraming) (answer s)]
    | .xStopWr => [.write (busAddr s.cfg.regBitFraming) (s.t &&& ~~~s.cfg.startSend)]
    | .xErrRd => [.read (busAddr s.cfg.regError) (answer s)]
    | .xLevelRd => [.read (busAddr s.cfg.regFifoLevel) (answer s)]
    | .xLastRd => [.read (busAddr s.cfg.regControl) (answer s)]
    | .xDrain => [.read (busAddr s.cfg.regFifoData) (answer s)]
    | .cClrRd => [.read (busAddr s.cfg.regDivIrq) (answer s)]
    | .cClrWr => [.write (busAddr s.cfg.regDivIrq) (s.t &&& ~~~s.cfg.crcDone)]
    | .cFlushRd => [.read (busAddr s.cfg.regFifoLevel) (answer s)]
    | .cFlushWr => [.write (busAddr s.cfg.regFifoLevel) (s.t ||| s.cfg.fifoFlush)]
    | .cLoad => [.write (busAddr s.cfg.regFifoData) (inByte s)]
    | .cCmdWr => [.write (busAddr s.cfg.regCommand) s.cfg.cmdCalcCrc]
    | .cPoll => [.read (busAddr s.cfg.regDivIrq) (answer s)]
    | .cResL => [.read (busAddr s.cfg.regCrcL) (answer s)]
    | .cResH => [.read (busAddr s.cfg.regCrcH) (answer s)]

/-- R28, R29, R105: acceptance latches the request and selects the masks of the command; IN beyond the data keeps what it
held; no phase step changes the latches or the masks. -/
def Obligations.AcceptanceLatchesTheRequest : Prop :=
  (∀ (s : State) (cmd : Byte) (d : List Byte), s.cfg.legal = true → d.length ≤ 255 →
    (let t := acceptExec cmd d s
     t.op.code = 0 ∧ t.cmd = cmd ∧ t.len.toNat = d.length ∧
     (∀ k, k < d.length → t.inBuf[k]? = d[k]?) ∧ (∀ k, d.length ≤ k → t.inBuf[k]? = s.inBuf[k]?) ∧
     (cmd = s.cfg.cmdAuthent → t.ien = s.cfg.ienAuth ∧ t.wait = s.cfg.waitAuth) ∧
     (cmd = s.cfg.cmdTransceive → t.ien = s.cfg.ienTrx ∧ t.wait = s.cfg.waitTrx) ∧
     (plainCommand s.cfg cmd → t.ien = s.cfg.ienOther ∧ t.wait = s.cfg.waitOther)) ∧
    (let t := acceptCrc d s
     t.op.code = 1 ∧ t.cmd = s.cfg.cmdCalcCrc ∧ t.len.toNat = d.length ∧
     (∀ k, k < d.length → t.inBuf[k]? = d[k]?) ∧ (∀ k, d.length ≤ k → t.inBuf[k]? = s.inBuf[k]?) ∧
     t.ien = 0 ∧ t.wait = 0)) ∧
  (∀ s : State, (phaseStep s).op = s.op ∧ (phaseStep s).cmd = s.cmd ∧ (phaseStep s).len = s.len ∧
    (phaseStep s).inBuf = s.inBuf ∧ (phaseStep s).ien = s.ien ∧ (phaseStep s).wait = s.wait) ∧
  (masksOf Cfg.default Cfg.default.cmdAuthent = (0x12, 0x10) ∧
    masksOf Cfg.default Cfg.default.cmdTransceive = (0x77, 0x30) ∧
    masksOf Cfg.default Cfg.default.cmdIdle = (0, 0))

/-- R97, R98: SETB and CLRB are a read into T and a write of the byte read with the mask set or cleared; a bit already
set or clear does not suppress the write; nothing else changes but the environment's side. -/
def Obligations.SetAndClearBits : Prop :=
  ∀ (a m : Byte) (s : State),
    setb a m s = { s with
      t := answer s,
      bus := s.bus ++ [.read (busAddr a) (answer s), .write (busAddr a) (answer s ||| m)],
      mem := Memory.write s.mem (busAddr a).toNat (answer s ||| m),
      answers := s.answers.tail, reads := s.reads + 1 } ∧
    clrb a m s = { s with
      t := answer s,
      bus := s.bus ++ [.read (busAddr a) (answer s), .write (busAddr a) (answer s &&& ~~~m)],
      mem := Memory.write s.mem (busAddr a).toNat (answer s &&& ~~~m),
      answers := s.answers.tail, reads := s.reads + 1 } ∧
    ∀ b : Byte, (~~~b).toNat = 255 - b.toNat

/-- R107, R108, R112, R118, R136, R137: each read phase and the write phase after it are together one SETB or CLRB, and
X_START_WR also loads the budget. -/
def Obligations.PhasePairsAreSetbAndClrb : Prop :=
  ∀ s : State,
    (s.phase = .xIrqRd → phaseStep (phaseStep s) = goto .xFlushRd (clrb s.cfg.regIrq s.cfg.irqClear s)) ∧
    (s.phase = .xFlushRd → phaseStep (phaseStep s) = goto .xIdleWr (setb s.cfg.regFifoLevel s.cfg.fifoFlush s)) ∧
    (s.phase = .xStartRd → phaseStep (phaseStep s) =
      goto .xPoll { setb s.cfg.regBitFraming s.cfg.startSend s with cnt := s.cfg.pollBudget }) ∧
    (s.phase = .xStopRd → phaseStep (phaseStep s) =
      goto (if s.cnt = 0 then .xDone else .xErrRd) (clrb s.cfg.regBitFraming s.cfg.startSend s)) ∧
    (s.phase = .cClrRd → phaseStep (phaseStep s) = goto .cFlushRd (clrb s.cfg.regDivIrq s.cfg.crcDone s)) ∧
    (s.phase = .cFlushRd → phaseStep (phaseStep s) =
      goto (if s.len.toNat > 0 then .cLoad else .cCmdWr) (setb s.cfg.regFifoLevel s.cfg.fifoFlush s))

/-- R114, R140: one poll reads the register into NIRQ, then decrements CNT, then tests the new values; nothing else
changes. -/
def Obligations.OnePoll : Prop :=
  ∀ s : State,
    (s.phase = .xPoll → phaseStep s = { s with
      nirq := answer s, cnt := s.cnt - 1,
      bus := s.bus ++ [.read (busAddr s.cfg.regIrq) (answer s)], answers := s.answers.tail, reads := s.reads + 1,
      phase := if s.cnt - 1 = 0 ∨ answer s &&& s.cfg.irqTimer ≠ 0 ∨ answer s &&& s.wait ≠ 0
        then .xStopRd else .xPoll }) ∧
    (s.phase = .cPoll → phaseStep s = { s with
      nirq := answer s, cnt := s.cnt - 1,
      bus := s.bus ++ [.read (busAddr s.cfg.regDivIrq) (answer s)], answers := s.answers.tail, reads := s.reads + 1,
      phase := if s.cnt - 1 = 0 ∨ answer s &&& s.cfg.crcDone ≠ 0 then .cResL else .cPoll })

/-- R119, R120: the error read. A masked error bit leaves STATUS as it is and ends the request; otherwise STATUS is
NoTagError when the timer bit is in the last poll and in the enable mask, else Ok, and a Transceive goes on to read the
level. -/
def Obligations.ErrorReadSetsStatus : Prop :=
  ∀ s : State, s.phase = .xErrRd →
    (answer s &&& s.cfg.errMask ≠ 0 → phaseStep s = { s with
      err := answer s, phase := .xDone,
      bus := s.bus ++ [.read (busAddr s.cfg.regError) (answer s)], answers := s.answers.tail, reads := s.reads + 1 }) ∧
    (answer s &&& s.cfg.errMask = 0 → phaseStep s = { s with
      err := answer s,
      status := if s.nirq &&& s.ien &&& s.cfg.irqTimer ≠ 0 then s.cfg.stNoTag else s.cfg.stOk,
      phase := if s.cmd = s.cfg.cmdTransceive then .xLevelRd else .xDone,
      bus := s.bus ++ [.read (busAddr s.cfg.regError) (answer s)], answers := s.answers.tail, reads := s.reads + 1 })

/-- R121, R122, R123: the level read and the last-bits read of a Transceive: LVL whole and unmasked, VB the three-bit
field, BITLEN and DCNT computed from them, IDX 0. -/
def Obligations.LengthReads : Prop :=
  ∀ s : State,
    (s.phase = .xLevelRd → phaseStep s = { s with
      lvl := answer s, phase := .xLastRd,
      bus := s.bus ++ [.read (busAddr s.cfg.regFifoLevel) (answer s)], answers := s.answers.tail,
      reads := s.reads + 1 }) ∧
    (s.phase = .xLastRd → ∃ t, phaseStep s = t ∧ t.phase = .xDrain ∧ t.idx = 0 ∧
      t.bus = s.bus ++ [.read (busAddr s.cfg.regControl) (answer s)] ∧
      t.vb.toNat = (answer s).toNat / 2 ^ s.cfg.lastBitsLsb % 8 ∧
      (t.vb ≠ 0 → t.bitLen.toInt = ((s.lvl.toNat : Int) - 1) * 8 + t.vb.toNat) ∧
      (t.vb = 0 → t.bitLen.toInt = (s.lvl.toNat : Int) * 8) ∧
      (s.lvl = 0 → t.dcnt = 1) ∧
      (s.lvl.toNat > s.cfg.maxLen.toNat → t.dcnt = s.cfg.maxLen) ∧
      (s.lvl ≠ 0 → s.lvl.toNat ≤ s.cfg.maxLen.toNat → t.dcnt.toNat = s.lvl.toNat) ∧
      t = { s with phase := t.phase, idx := t.idx, bus := t.bus, vb := t.vb, bitLen := t.bitLen, dcnt := t.dcnt,
                   answers := s.answers.tail, reads := s.reads + 1 })

/-- R36, R122, R133 (e): BITLEN is the exact integer, from -7 to 2040, for every level and every last-bits value; the
12-bit register truncates nothing. -/
def Obligations.BitLengthIsExact : Prop :=
  ∀ (lvl : Byte) (vb : BitVec 3),
    (vb ≠ 0 → (bitLenOf lvl vb).toInt = ((lvl.toNat : Int) - 1) * 8 + vb.toNat) ∧
    (vb = 0 → (bitLenOf lvl vb).toInt = (lvl.toNat : Int) * 8) ∧
    (-7 : Int) ≤ (bitLenOf lvl vb).toInt ∧ (bitLenOf lvl vb).toInt ≤ 2040

/-- R110, R124, R138: one pass of the load loop and one of the drain loop, in every state in which the engine makes one
(IDX below its bound). -/
def Obligations.OneByteLoadedOrDrained : Prop :=
  ∀ s : State,
    (s.phase = .xLoad ∨ s.phase = .cLoad → s.idx.toNat < s.len.toNat →
      ∃ b, s.inBuf[s.idx.toNat]? = some b ∧
        (phaseStep s).bus = s.bus ++ [.write (busAddr s.cfg.regFifoData) b] ∧
        (phaseStep s).idx.toNat = s.idx.toNat + 1) ∧
    (s.phase = .xDrain → s.idx.toNat < s.dcnt.toNat → s.dcnt.toNat ≤ 16 →
      (phaseStep s).bus = s.bus ++ [.read (busAddr s.cfg.regFifoData) (answer s)] ∧
      (phaseStep s).outBuf[s.idx.toNat]? = some (answer s) ∧
      (∀ k, k ≠ s.idx.toNat → (phaseStep s).outBuf[k]? = s.outBuf[k]?) ∧
      (phaseStep s).olen.toNat = s.idx.toNat + 1 ∧ (phaseStep s).idx.toNat = s.idx.toNat + 1)

/-- R106, R109, R111, R113, R125, R139, R141, R142: the remaining phases, as exact states. -/
def Obligations.PlainPhases : Prop :=
  ∀ s : State,
    (s.phase = .xIenWr → phaseStep s = goto .xIrqRd (busWrite s.cfg.regIen (s.ien ||| s.cfg.ienOr) s)) ∧
    (s.phase = .xIdleWr → phaseStep s =
      goto (if s.len.toNat > 0 then .xLoad else .xCmdWr) (busWrite s.cfg.regCommand s.cfg.cmdIdle s)) ∧
    (s.phase = .xCmdWr → s.cmd = s.cfg.cmdTransceive →
      phaseStep s = goto .xStartRd (busWrite s.cfg.regCommand s.cmd s)) ∧
    (s.phase = .xCmdWr → s.cmd ≠ s.cfg.cmdTransceive →
      phaseStep s = goto .xPoll { busWrite s.cfg.regCommand s.cmd s with cnt := s.cfg.pollBudget }) ∧
    (s.phase = .xDone → phaseStep s = { s with
      phase := .idle,
      responses := s.responses ++ [.exec s.status (s.outBuf.toList.take s.olen.toNat) s.vb s.bitLen] }) ∧
    (s.phase = .cCmdWr → phaseStep s =
      goto .cPoll { busWrite s.cfg.regCommand s.cfg.cmdCalcCrc s with cnt := s.cfg.crcBudget }) ∧
    (s.phase = .cResL → phaseStep s = goto .cResH { busRead s.cfg.regCrcL s with crcL := answer s }) ∧
    (s.phase = .cResH → phaseStep s = goto .cDone { busRead s.cfg.regCrcH s with crcH := answer s }) ∧
    (s.phase = .cDone → phaseStep s = { s with phase := .idle, responses := s.responses ++ [.crc s.crcL s.crcH] })

/-! ## The operations -/

/-- R103: the six EXEC rows complete, and the phases give the same behaviour as the pseudocode of R103, line for line,
with the command byte of the row. -/
def Obligations.ExecRunsThePseudocode : Prop :=
  ∀ s : State, s.Ready →
    (∀ d, exec (.execIdle d) s = .next (pseudoExec s.cfg.cmdIdle d s)) ∧
    (∀ d, exec (.execCalcCrc d) s = .next (pseudoExec s.cfg.cmdCalcCrc d s)) ∧
    (∀ d, exec (.execTransceive d) s = .next (pseudoExec s.cfg.cmdTransceive d s)) ∧
    (∀ d, exec (.execAuthent d) s = .next (pseudoExec s.cfg.cmdAuthent d s)) ∧
    (∀ d, exec (.execSoftReset d) s = .next (pseudoExec s.cfg.cmdSoftReset d s)) ∧
    (∀ cmd d, exec (.execOther cmd d) s = .next (pseudoExec cmd d s))

/-- R134: CRC completes, and the phases give the same behaviour as the pseudocode of R134. -/
def Obligations.CrcRunsThePseudocode : Prop :=
  ∀ (s : State) (d : List Byte), s.Ready → exec (.crc d) s = .next (pseudoCrc d s)

/-- R106 to R112, R118, R119, R121, R124 (the EXEC column of R52): the whole bus trace of every EXEC, given the answers:
enable, clear, flush, Idle, the data, the command, start-send for a Transceive, the polls, start-send cleared, the error
register unless exhausted, and for a Transceive without a masked error the level, the last-bits and the payload. -/
def Obligations.ExecBusTrace : Prop :=
  ∀ (i : Instr) (s : State), i.isExec = true → i.data.length ≤ 255 → s.Ready →
    let c := s.cfg
    let cmd := commandOf c i
    ∃ (t : State) (a b g f w : Byte) (polls : List Byte),
      exec i s = .next t ∧ polls ≠ [] ∧ t.bus = s.bus
        ++ [Txn.write (busAddr c.regIen) ((masksOf c cmd).1 ||| c.ienOr),
            Txn.read (busAddr c.regIrq) a, Txn.write (busAddr c.regIrq) (a &&& ~~~c.irqClear),
            Txn.read (busAddr c.regFifoLevel) b, Txn.write (busAddr c.regFifoLevel) (b ||| c.fifoFlush),
            Txn.write (busAddr c.regCommand) c.cmdIdle]
        ++ i.data.map (Txn.write (busAddr c.regFifoData))
        ++ [Txn.write (busAddr c.regCommand) cmd]
        ++ (if cmd = c.cmdTransceive
            then [Txn.read (busAddr c.regBitFraming) g, Txn.write (busAddr c.regBitFraming) (g ||| c.startSend)] else [])
        ++ polls.map (Txn.read (busAddr c.regIrq))
        ++ [Txn.read (busAddr c.regBitFraming) f, Txn.write (busAddr c.regBitFraming) (f &&& ~~~c.startSend)]
        ++ (if t.cnt = 0 then [] else [Txn.read (busAddr c.regError) t.err])
        ++ (if t.cnt ≠ 0 ∧ t.err &&& c.errMask = 0 ∧ cmd = c.cmdTransceive
            then [Txn.read (busAddr c.regFifoLevel) t.lvl, Txn.read (busAddr c.regControl) w]
              ++ (payload t).map (Txn.read (busAddr c.regFifoData)) else []) ∧
      (t.cnt ≠ 0 ∧ t.err &&& c.errMask = 0 ∧ cmd = c.cmdTransceive → t.vb = validBitsOf c.lastBitsLsb w) ∧
      t.responses = s.responses ++ [Response.exec t.status (payload t) t.vb t.bitLen]

/-- R115, R116, R117: the polls of an EXEC stand together on the bus, at least one and at most POLL_BUDGET; none but the
last shows the timer bit or a wait bit; NIRQ is the last; CNT counts them; the request is exhausted (and its status Error)
exactly when no poll numbered 1 to POLL_BUDGET - 1 showed such a bit, so always with a budget of 1. -/
def Obligations.PollsAndExhaustion : Prop :=
  ∀ (i : Instr) (s : State), i.isExec = true → i.data.length ≤ 255 → s.Ready →
    let c := s.cfg
    let wait := (masksOf c (commandOf c i)).2
    let quiet := fun v : Byte => v &&& c.irqTimer = 0 ∧ v &&& wait = 0
    ∃ (t : State) (pre post : List Txn) (polls : List Byte) (f : Byte),
      exec i s = .next t ∧
      t.bus = s.bus ++ pre ++ polls.map (Txn.read (busAddr c.regIrq)) ++ Txn.read (busAddr c.regBitFraming) f :: post ∧
      pre.length = 7 + i.data.length + (if commandOf c i = c.cmdTransceive then 2 else 0) ∧
      1 ≤ polls.length ∧ polls.length ≤ c.pollBudget.toNat ∧
      t.cnt.toNat = c.pollBudget.toNat - polls.length ∧
      polls.getLast? = some t.nirq ∧
      (∀ v ∈ polls.dropLast, quiet v) ∧
      (t.cnt = 0 ↔ ∀ v ∈ polls.take (c.pollBudget.toNat - 1), quiet v) ∧
      (t.cnt = 0 → t.status = c.stErr) ∧ (c.pollBudget = 1 → t.cnt = 0)

/-- R151 (with R152 to R155 and R163): the cause table of every EXEC, in terms of the registers it leaves: the poll
counter, the error register value, the last polled value and the selected enable mask; and what the response carries in
each row. On exhaustion the error register is not read. -/
def Obligations.StatusFollowsCauseTable : Prop :=
  ∀ (i : Instr) (s : State), i.isExec = true → s.Ready →
    let c := s.cfg
    let cmd := commandOf c i
    ∃ (t : State) (trace : List Txn),
      exec i s = .next t ∧ t.bus = s.bus ++ trace ∧ t.ien = (masksOf c cmd).1 ∧
      t.responses = s.responses ++ [.exec t.status (payload t) t.vb t.bitLen] ∧
      (t.cnt = 0 → t.status = c.stErr ∧ ∀ x ∈ trace, x.addr ≠ busAddr c.regError) ∧
      (t.cnt ≠ 0 → .read (busAddr c.regError) t.err ∈ trace) ∧
      (t.cnt ≠ 0 → t.err &&& c.errMask ≠ 0 → t.status = c.stErr) ∧
      (t.cnt ≠ 0 → t.err &&& c.errMask = 0 → t.nirq &&& t.ien &&& c.irqTimer ≠ 0 → t.status = c.stNoTag) ∧
      (t.cnt ≠ 0 → t.err &&& c.errMask = 0 → t.nirq &&& t.ien &&& c.irqTimer = 0 → t.status = c.stOk) ∧
      (t.status = c.stErr ∨ cmd ≠ c.cmdTransceive → payload t = [] ∧ t.vb = 0 ∧ t.bitLen = 0) ∧
      (t.status ≠ c.stErr → cmd = c.cmdTransceive →
        1 ≤ (payload t).length ∧ (payload t).length ≤ 16 ∧ (payload t).length = (drainCount c.maxLen t.lvl).toNat ∧
        t.bitLen.toInt = exactBitLen t.lvl t.vb)

/-- R126: EXEC.TRANSCEIVE under every legal CFG: its masks (0x77 and 0x30 by R7), the status from exhaustion, the error
bits and the timer bit of the last poll, an empty payload, validBits 0 and bitLen 0 exactly on Error, and otherwise the
level, the last-bits and the 1 to 16 payload bytes as the last transactions read them, with validBits and bitLen computed
from the first two; and the three transaction counts. -/
def Obligations.TransceiveResult : Prop :=
  Cfg.default.ienTrx = 0x77 ∧ Cfg.default.waitTrx = 0x30 ∧
  ∀ (s : State) (d : List Byte), s.Ready → d.length ≤ 255 →
    let c := s.cfg
    ∃ (t : State) (p : Nat),
      exec (.execTransceive d) s = .next t ∧ t.ien = c.ienTrx ∧ t.wait = c.waitTrx ∧
      1 ≤ p ∧ p ≤ c.pollBudget.toNat ∧ t.cnt.toNat = c.pollBudget.toNat - p ∧
      t.responses = s.responses ++ [.exec t.status (payload t) t.vb t.bitLen] ∧
      (t.cnt = 0 → t.status = c.stErr ∧ p = c.pollBudget.toNat ∧ t.bus.length = s.bus.length + 11 + d.length + p) ∧
      (t.cnt ≠ 0 → t.err &&& c.errMask ≠ 0 →
        t.status = c.stErr ∧ t.bus.length = s.bus.length + 12 + d.length + p) ∧
      (t.cnt ≠ 0 → t.err &&& c.errMask = 0 →
        t.status = (if t.nirq &&& c.ienTrx &&& c.irqTimer ≠ 0 then c.stNoTag else c.stOk) ∧
        (c.ienTrx &&& c.irqTimer = c.irqTimer → (t.status = c.stNoTag ↔ t.nirq &&& c.irqTimer ≠ 0)) ∧
        t.bus.length = s.bus.length + 14 + d.length + p + t.dcnt.toNat ∧
        (payload t).length = t.dcnt.toNat ∧ 1 ≤ t.dcnt.toNat ∧ t.dcnt.toNat ≤ 16 ∧
        ∃ (pre : List Txn) (w : Byte),
          t.bus = s.bus ++ pre ++ [Txn.read (busAddr c.regFifoLevel) t.lvl, Txn.read (busAddr c.regControl) w]
            ++ (payload t).map (Txn.read (busAddr c.regFifoData)) ∧
          t.vb.toNat = w.toNat / 2 ^ c.lastBitsLsb % 8 ∧
          (t.vb ≠ 0 → t.bitLen.toInt = ((t.lvl.toNat : Int) - 1) * 8 + t.vb.toNat) ∧
          (t.vb = 0 → t.bitLen.toInt = (t.lvl.toNat : Int) * 8)) ∧
      (payload t = [] ↔ t.status = c.stErr) ∧ (t.status = c.stErr → t.vb = 0 ∧ t.bitLen = 0)

/-- R127: EXEC.AUTHENT under any legal CFG: its masks, its status (NoTagError only if the mask has the timer bit), an
empty result and the two transaction counts; never NoTagError when the mask lacks the timer bit, as 0x12 lacks 0x01. -/
def Obligations.AuthentResult : Prop :=
  ∀ (s : State) (d : List Byte), s.Ready → d.length ≤ 255 →
    let c := s.cfg
    ∃ (t : State) (p : Nat),
      exec (.execAuthent d) s = .next t ∧ t.ien = c.ienAuth ∧ t.wait = c.waitAuth ∧
      1 ≤ p ∧ p ≤ c.pollBudget.toNat ∧ t.cnt.toNat = c.pollBudget.toNat - p ∧
      t.status = (if t.cnt = 0 ∨ t.err &&& c.errMask ≠ 0 then c.stErr
        else if c.ienAuth &&& c.irqTimer &&& t.nirq ≠ 0 then c.stNoTag else c.stOk) ∧
      (c.ienAuth &&& c.irqTimer = 0 → t.status ≠ c.stNoTag) ∧ (0x12 : Byte) &&& 0x01 = 0 ∧
      payload t = [] ∧ t.vb = 0 ∧ t.bitLen = 0 ∧
      t.bus.length = s.bus.length + (if t.cnt = 0 then 9 else 10) + d.length + p

/-- R128 to R131 (IDLE, CALCCRC, SOFTRESET and OTHER, and any row whose command is neither Authenticate nor Transceive):
masks of the others, an empty result, the two transaction counts, the command register written with Idle and then with
the command; never NoTagError when the mask is 0, as by default. -/
def Obligations.OtherCommandsResult : Prop :=
  ∀ (i : Instr) (s : State), i.isExec = true → plainCommand s.cfg (commandOf s.cfg i) → s.Ready →
    i.data.length ≤ 255 →
    let c := s.cfg
    ∃ (t : State) (p : Nat),
      exec i s = .next t ∧ t.cmd = commandOf c i ∧ t.ien = c.ienOther ∧ t.wait = c.waitOther ∧
      1 ≤ p ∧ p ≤ c.pollBudget.toNat ∧ t.cnt.toNat = c.pollBudget.toNat - p ∧
      t.status = (if t.cnt = 0 ∨ t.err &&& c.errMask ≠ 0 then c.stErr
        else if c.ienOther &&& c.irqTimer &&& t.nirq ≠ 0 then c.stNoTag else c.stOk) ∧
      (c.ienOther = 0 → t.status ≠ c.stNoTag) ∧
      payload t = [] ∧ t.vb = 0 ∧ t.bitLen = 0 ∧
      t.bus.length = s.bus.length + (if t.cnt = 0 then 9 else 10) + i.data.length + p ∧
      (t.bus.drop s.bus.length).filter (fun x => x.addr = busAddr c.regCommand)
        = [.write (busAddr c.regCommand) c.cmdIdle, .write (busAddr c.regCommand) (commandOf c i)]

/-- R84: `EXEC.OTHER` is selected only when no named row matches; the named rows are their command bytes; and two
commands that are neither Authenticate nor Transceive, run from one ready state, make the identical sequence with
different bytes written to the command register, and get the same response. -/
def Obligations.RowsDifferOnlyInTwoCommands : Prop :=
  (∀ (c : Cfg) (cmd : Byte) (d : List Byte),
    selectExec c cmd d = .execOther cmd d ↔ cmd ∉ [c.cmdIdle, c.cmdCalcCrc, c.cmdTransceive, c.cmdAuthent, c.cmdSoftReset]) ∧
  (∀ (i : Instr) (s : State), i.isExec = true → exec i s = exec (.execOther (commandOf s.cfg i) i.data) s) ∧
  ∀ (s : State) (x y : Byte) (d : List Byte), s.Ready → plainCommand s.cfg x → plainCommand s.cfg y →
    d.length ≤ 255 →
    ∃ (t u : State) (pre post : List Txn) (r : Response),
      exec (.execOther x d) s = .next t ∧ exec (.execOther y d) s = .next u ∧ pre.length = 6 + d.length ∧
      t.bus = s.bus ++ pre ++ .write (busAddr s.cfg.regCommand) x :: post ∧
      u.bus = s.bus ++ pre ++ .write (busAddr s.cfg.regCommand) y :: post ∧
      t.responses = s.responses ++ [r] ∧ u.responses = s.responses ++ [r]

/-- R132: every EXEC terminates, and its number of bus transactions; at most 2284 with the budget 2000 of R7, and 2285
engine steps after acceptance always suffice there. -/
def Obligations.ExecTransactionCount : Prop :=
  ∀ (i : Instr) (s : State), i.isExec = true → i.data.length ≤ 255 → s.Ready →
    let c := s.cfg
    let cmd := commandOf c i
    ∃ (t : State) (p : Nat),
      exec i s = .next t ∧ t.phase = .idle ∧ 1 ≤ p ∧ p ≤ c.pollBudget.toNat ∧
      t.cnt.toNat = c.pollBudget.toNat - p ∧
      t.bus.length = s.bus.length + 7 + i.data.length + (if cmd = c.cmdTransceive then 2 else 0) + p + 2
        + (if t.cnt ≠ 0 then 1 else 0)
        + (if t.cnt ≠ 0 ∧ t.err &&& c.errMask = 0 ∧ cmd = c.cmdTransceive then 2 + t.dcnt.toNat else 0) ∧
      (c.pollBudget = 2000 → t.bus.length ≤ s.bus.length + 2284 ∧
        (runEngine 2285 (acceptExec cmd i.data s)).phase = .idle)

/-- R136 to R144: the whole bus trace of every CRC: clear, flush, the data, CalcCRC, the polls (at least one, at most
CRC_BUDGET, only the last may show CRC-done), the low and then the high result register, whose answers are the response
whether or not the flag was seen; `7 + LEN + P` transactions, at most 517 with the budget 255 of R7. -/
def Obligations.CrcBusTrace : Prop :=
  ∀ (d : List Byte) (s : State), d.length ≤ 255 → s.Ready →
    let c := s.cfg
    ∃ (t : State) (a b low high : Byte) (polls : List Byte),
      exec (.crc d) s = .next t ∧ t.phase = .idle ∧ t.bus = s.bus
        ++ [Txn.read (busAddr c.regDivIrq) a, Txn.write (busAddr c.regDivIrq) (a &&& ~~~c.crcDone),
            Txn.read (busAddr c.regFifoLevel) b, Txn.write (busAddr c.regFifoLevel) (b ||| c.fifoFlush)]
        ++ d.map (Txn.write (busAddr c.regFifoData))
        ++ [Txn.write (busAddr c.regCommand) c.cmdCalcCrc]
        ++ polls.map (Txn.read (busAddr c.regDivIrq))
        ++ [Txn.read (busAddr c.regCrcL) low, Txn.read (busAddr c.regCrcH) high] ∧
      1 ≤ polls.length ∧ polls.length ≤ c.crcBudget.toNat ∧ t.cnt.toNat = c.crcBudget.toNat - polls.length ∧
      (∀ v ∈ polls.dropLast, v &&& c.crcDone = 0) ∧
      (polls.length < c.crcBudget.toNat → ∃ v, polls.getLast? = some v ∧ v &&& c.crcDone ≠ 0) ∧
      t.crcL = low ∧ t.crcH = high ∧ t.responses = s.responses ++ [Response.crc low high] ∧
      t.bus.length = s.bus.length + 7 + d.length + polls.length ∧
      (c.crcBudget = 255 → t.bus.length ≤ s.bus.length + 517)

/-- R187 (from R122, R123): for a Transceive that reports Ok or NoTagError, `bitLen > 8 * OLEN` is the sign of truncation:
it holds exactly when the level read was above MAX_LEN, and the payload then has MAX_LEN bytes. -/
def Obligations.TruncationShowsInBitLength : Prop :=
  ∀ (s : State) (d : List Byte), s.Ready →
    ∃ t, exec (.execTransceive d) s = .next t ∧
      (t.status ≠ s.cfg.stErr →
        (t.bitLen.toInt > 8 * ((payload t).length : Int) ↔ t.lvl.toNat > s.cfg.maxLen.toNat) ∧
        (t.lvl.toNat > s.cfg.maxLen.toNat → (payload t).length = s.cfg.maxLen.toNat))

/-- R95: BUS.WR delivers one byte to the six address bits, with the two bus bytes of R80; no engine register changes, and
every other address keeps the byte last delivered to it. As an instruction of its own it is the requester's access
(log 7), at a reserved address too (log 21); the delivered byte is kept in `mem` (log 5). -/
def Obligations.BusWriteResult : Prop :=
  ∀ (a : BusAddr) (v : Byte) (s : State),
    exec (.busWr a v) s = .next { s with bus := s.bus ++ [.write a v], mem := Memory.write s.mem a.toNat v } ∧
    (Txn.write a v).wire = [addrByteWr (a.setWidth 8), v] ∧
    ∀ k, Memory.read (Memory.write s.mem a.toNat v) k = if k = a.toNat then some v else Memory.read s.mem k

/-- R96: BUS.RD makes one read transaction answered with whatever the environment gives next (R12, log 4: the next listed
answer, else the free value). No engine register changes: R96 has the calling step latch the byte into the register it
names, and as an instruction of its own, the requester's access, there is none (log 7); this holds at a reserved address
too (log 21). No delivered byte changes. -/
def Obligations.BusReadResult : Prop :=
  ∀ (a : BusAddr) (s : State),
    exec (.busRd a) s = .next { s with
      bus := s.bus ++ [.read a (answer s)], answers := s.answers.tail, reads := s.reads + 1 } ∧
    (Txn.read a (answer s)).wire = [addrByteRd (a.setWidth 8)] ∧
    (∀ v rest, s.answers = v :: rest → answer s = v) ∧ (s.answers = [] → answer s = Config.freeAnswer s.reads)

/-! ## Frames -/

/-- R22, R28, R32, R37, R39, R44, R158, R161, R193: what an EXEC leaves unchanged, and the latches it leaves. CRCL, CRCH
and CFG stay; ERR stays when exhausted; LVL and DCNT stay unless a Transceive received; OUT beyond OLEN and IN beyond LEN
stay; the only addresses stored to are the six of the EXEC column of R52 (the FIFO one only when there is data), so every
other address keeps its byte; the command register was last written with the command and the enable register with
`IEN | IEN_OR`; the engine is ready again whatever the status. -/
def Obligations.ExecFrame : Prop :=
  ∀ (i : Instr) (s : State), i.isExec = true → i.data.length ≤ 255 → s.Ready →
    let c := s.cfg
    let cmd := commandOf c i
    ∃ t, exec i s = .next t ∧ t.Ready ∧ t.cfg = c ∧ t.inbox = s.inbox ∧ t.crcL = s.crcL ∧ t.crcH = s.crcH ∧
      t.op = .exec ∧ t.cmd = cmd ∧ t.len.toNat = i.data.length ∧ t.ien = (masksOf c cmd).1 ∧
      t.wait = (masksOf c cmd).2 ∧
      (∀ k, t.inBuf[k]? = if k < i.data.length then i.data[k]? else s.inBuf[k]?) ∧
      (∀ k, t.olen.toNat ≤ k → t.outBuf[k]? = s.outBuf[k]?) ∧
      (t.cnt = 0 → t.err = s.err) ∧
      (t.status = c.stErr ∨ cmd ≠ c.cmdTransceive → t.lvl = s.lvl ∧ t.dcnt = s.dcnt ∧ t.outBuf = s.outBuf) ∧
      (∀ a : Nat, a ≠ (busAddr c.regIen).toNat → a ≠ (busAddr c.regIrq).toNat → a ≠ (busAddr c.regFifoLevel).toNat →
        a ≠ (busAddr c.regCommand).toNat → a ≠ (busAddr c.regBitFraming).toNat →
        (i.data ≠ [] → a ≠ (busAddr c.regFifoData).toNat) → Memory.read t.mem a = Memory.read s.mem a) ∧
      Memory.read t.mem (busAddr c.regCommand).toNat = some cmd ∧
      Memory.read t.mem (busAddr c.regIen).toNat = some ((masksOf c cmd).1 ||| c.ienOr)

/-- R135, R141, R145: what a CRC leaves unchanged: STATUS, OLEN, VB, BITLEN, OUT, ERR, LVL, DCNT and CFG; IN beyond LEN;
every address but the four of the CRC column of R52 it stores to, so neither the interrupt-enable nor the
interrupt-request nor the bit-framing register; the last written command is CalcCRC; the engine is ready again. -/
def Obligations.CrcFrame : Prop :=
  ∀ (d : List Byte) (s : State), d.length ≤ 255 → s.Ready →
    let c := s.cfg
    ∃ t, exec (.crc d) s = .next t ∧ t.Ready ∧ t.cfg = c ∧ t.inbox = s.inbox ∧ t.status = s.status ∧
      t.olen = s.olen ∧ t.vb = s.vb ∧ t.bitLen = s.bitLen ∧ t.outBuf = s.outBuf ∧ t.err = s.err ∧ t.lvl = s.lvl ∧
      t.dcnt = s.dcnt ∧ t.op = .crc ∧ t.cmd = c.cmdCalcCrc ∧ t.len.toNat = d.length ∧ t.ien = 0 ∧ t.wait = 0 ∧
      (∀ k, t.inBuf[k]? = if k < d.length then d[k]? else s.inBuf[k]?) ∧
      (∀ a : Nat, a ≠ (busAddr c.regDivIrq).toNat → a ≠ (busAddr c.regFifoLevel).toNat →
        a ≠ (busAddr c.regCommand).toNat → (d ≠ [] → a ≠ (busAddr c.regFifoData).toNat) →
        Memory.read t.mem a = Memory.read s.mem a) ∧
      Memory.read t.mem (busAddr c.regCommand).toNat = some c.cmdCalcCrc

/-! ## The whole machine -/

/-- R55, R99 (and R52): whatever the state, the phase and the answers, a request makes the engine access only the eleven
registers of CFG, none of them reserved. -/
def Obligations.OnlyConfiguredRegisters : Prop :=
  ∀ (i : Instr) (s : State), i.isRequest = true → s.cfg.legal = true →
    ∃ (t : State) (trace : List Txn), exec i s = .next t ∧ t.bus = s.bus ++ trace ∧ ∀ x ∈ trace, x.Configured s.cfg

/-- R40: CFG is constant for the block's whole life, reset included. -/
def Obligations.CfgNeverChanges : Prop :=
  ∀ s t : State, step s = .next t → t.cfg = s.cfg

/-- R12, R44, R60: from any two ready states that agree only on CFG and on what the environment will answer, a request
makes the same transactions and gets the same response: no register left over from an earlier request is seen. -/
def Obligations.OutcomeDependsOnRequestCfgAnswers : Prop :=
  ∀ (i : Instr) (s₁ s₂ : State), i.isRequest = true → s₁.Ready → s₂.Ready → s₁.cfg = s₂.cfg →
    s₁.answers = s₂.answers → s₁.reads = s₂.reads →
    ∃ (t₁ t₂ : State) (trace : List Txn) (r : Response),
      exec i s₁ = .next t₁ ∧ exec i s₂ = .next t₂ ∧
      t₁.bus = s₁.bus ++ trace ∧ t₂.bus = s₂.bus ++ trace ∧
      t₁.responses = s₁.responses ++ [r] ∧ t₂.responses = s₂.responses ++ [r]

/-- The invariant of `Safety.lean` (R26, R27, R35 to R38, R76, R105, R133, R151 and the canonical form of the register
space) is kept by every step of the engine outside IDLE, the reset included. -/
def Obligations.EngineStepKeepsInvariant : Prop :=
  ∀ s : State, s.Inv → s.phase ≠ .idle → (engineStep s).Inv

/-- The same invariant is kept by every step of the block that has a next state. -/
def Obligations.StepKeepsInvariant : Prop :=
  ∀ s t : State, s.Inv → step s = .next t → t.Inv

/-- R176 with the reset values of R43 and the model's default CFG (log 2): right after reset the invariant holds, the
engine is ready for a request and owes no response. -/
def Obligations.InvariantAtReset : Prop :=
  State.reset.Inv ∧ State.reset.Ready ∧ State.reset.responses = [] ∧ State.reset.bus = []
end

