-- ==== Sys2Proof/Laws/Decode.lean ====
section
/-! SUPPORT. What the decoder does on each form of its input, said once. -/

namespace Sys2Proof

theorem decodeRequest_frame (c : Cfg) (op cmd len : Byte) (data rest : List Byte) (h : data.length = len.toNat) :
    decodeRequest c (op :: cmd :: len :: (data ++ rest)) = decodeBody c op cmd data rest := by
  rw [decodeRequest, if_neg (by rw [List.length_append]; omega), ← h, List.take_left, List.drop_left]

theorem decodeRequest_short (c : Cfg) (op cmd len : Byte) (body : List Byte) (h : body.length < len.toNat) :
    decodeRequest c (op :: cmd :: len :: body) = .incomplete := by
  rw [decodeRequest, if_pos h]

theorem decodeBody_exec (c : Cfg) (cmd : Byte) (data rest : List Byte) :
    decodeBody c 0x00 cmd data rest = .instr (selectExec c cmd data) rest := rfl

theorem decodeBody_crc (c : Cfg) (data rest : List Byte) : decodeBody c 0x01 0x00 data rest = .instr (.crc data) rest := rfl

theorem decodeBody_crcCmd (c : Cfg) {cmd : Byte} (data rest : List Byte) (h : cmd ≠ 0x00) :
    decodeBody c 0x01 cmd data rest = .reject .crcCmd rest := by
  rw [decodeBody, if_neg (by decide), if_pos rfl, if_neg h]

theorem decodeBody_reservedOp (c : Cfg) {op : Byte} (cmd : Byte) (data rest : List Byte) (h0 : op ≠ 0x00)
    (h1 : op ≠ 0x01) : decodeBody c op cmd data rest = .reject .reservedOp rest := by
  rw [decodeBody, if_neg h0, if_neg h1]

theorem decodeBus_reserved {ab : Byte} (rest : List Byte) (h : ab.getLsbD 0 = true) :
    decodeBus (ab :: rest) = .reservedByte ab rest := by
  unfold decodeBus; exact if_pos h

theorem decodeBus_read {ab : Byte} (rest : List Byte) (h0 : ab.getLsbD 0 = false) (h7 : ab.getLsbD 7 = true) :
    decodeBus (ab :: rest) = .instr (.busRd (addrOfByte ab)) rest := by
  unfold decodeBus; exact (if_neg (by rw [h0]; decide)).trans (if_pos h7)

theorem decodeBus_write {ab : Byte} (v : Byte) (rest : List Byte) (h0 : ab.getLsbD 0 = false)
    (h7 : ab.getLsbD 7 = false) : decodeBus (ab :: v :: rest) = .instr (.busWr (addrOfByte ab) v) rest := by
  unfold decodeBus; exact (if_neg (by rw [h0]; decide)).trans (if_neg (by rw [h7]; decide))

end Sys2Proof
end

