-- ==== Sys2Proof/Laws/State.lean ====
section
/-! SUPPORT. One lemma per field per update of State, true by rfl, for every shared operation: later proofs do not
unfold a record update. -/

namespace Sys2Proof.Machine

variable (s : State)

/-! ## `goto` -/

@[simp] theorem goto_cfg (p : Phase) : (goto p s).cfg = s.cfg := rfl
@[simp] theorem goto_phase (p : Phase) : (goto p s).phase = p := rfl
@[simp] theorem goto_op (p : Phase) : (goto p s).op = s.op := rfl
@[simp] theorem goto_cmd (p : Phase) : (goto p s).cmd = s.cmd := rfl
@[simp] theorem goto_len (p : Phase) : (goto p s).len = s.len := rfl
@[simp] theorem goto_inBuf (p : Phase) : (goto p s).inBuf = s.inBuf := rfl
@[simp] theorem goto_idx (p : Phase) : (goto p s).idx = s.idx := rfl
@[simp] theorem goto_ien (p : Phase) : (goto p s).ien = s.ien := rfl
@[simp] theorem goto_wait (p : Phase) : (goto p s).wait = s.wait := rfl
@[simp] theorem goto_cnt (p : Phase) : (goto p s).cnt = s.cnt := rfl
@[simp] theorem goto_t (p : Phase) : (goto p s).t = s.t := rfl
@[simp] theorem goto_nirq (p : Phase) : (goto p s).nirq = s.nirq := rfl
@[simp] theorem goto_err (p : Phase) : (goto p s).err = s.err := rfl
@[simp] theorem goto_lvl (p : Phase) : (goto p s).lvl = s.lvl := rfl
@[simp] theorem goto_vb (p : Phase) : (goto p s).vb = s.vb := rfl
@[simp] theorem goto_dcnt (p : Phase) : (goto p s).dcnt = s.dcnt := rfl
@[simp] theorem goto_bitLen (p : Phase) : (goto p s).bitLen = s.bitLen := rfl
@[simp] theorem goto_outBuf (p : Phase) : (goto p s).outBuf = s.outBuf := rfl
@[simp] theorem goto_olen (p : Phase) : (goto p s).olen = s.olen := rfl
@[simp] theorem goto_status (p : Phase) : (goto p s).status = s.status := rfl
@[simp] theorem goto_crcL (p : Phase) : (goto p s).crcL = s.crcL := rfl
@[simp] theorem goto_crcH (p : Phase) : (goto p s).crcH = s.crcH := rfl
@[simp] theorem goto_answers (p : Phase) : (goto p s).answers = s.answers := rfl
@[simp] theorem goto_reads (p : Phase) : (goto p s).reads = s.reads := rfl
@[simp] theorem goto_bus (p : Phase) : (goto p s).bus = s.bus := rfl
@[simp] theorem goto_mem (p : Phase) : (goto p s).mem = s.mem := rfl
@[simp] theorem goto_inbox (p : Phase) : (goto p s).inbox = s.inbox := rfl
@[simp] theorem goto_responses (p : Phase) : (goto p s).responses = s.responses := rfl
@[simp] theorem goto_resetIn (p : Phase) : (goto p s).resetIn = s.resetIn := rfl

/-! ## `busWrite` -/

@[simp] theorem busWrite_cfg (a v : Byte) : (busWrite a v s).cfg = s.cfg := rfl
@[simp] theorem busWrite_phase (a v : Byte) : (busWrite a v s).phase = s.phase := rfl
@[simp] theorem busWrite_op (a v : Byte) : (busWrite a v s).op = s.op := rfl
@[simp] theorem busWrite_cmd (a v : Byte) : (busWrite a v s).cmd = s.cmd := rfl
@[simp] theorem busWrite_len (a v : Byte) : (busWrite a v s).len = s.len := rfl
@[simp] theorem busWrite_inBuf (a v : Byte) : (busWrite a v s).inBuf = s.inBuf := rfl
@[simp] theorem busWrite_idx (a v : Byte) : (busWrite a v s).idx = s.idx := rfl
@[simp] theorem busWrite_ien (a v : Byte) : (busWrite a v s).ien = s.ien := rfl
@[simp] theorem busWrite_wait (a v : Byte) : (busWrite a v s).wait = s.wait := rfl
@[simp] theorem busWrite_cnt (a v : Byte) : (busWrite a v s).cnt = s.cnt := rfl
@[simp] theorem busWrite_t (a v : Byte) : (busWrite a v s).t = s.t := rfl
@[simp] theorem busWrite_nirq (a v : Byte) : (busWrite a v s).nirq = s.nirq := rfl
@[simp] theorem busWrite_err (a v : Byte) : (busWrite a v s).err = s.err := rfl
@[simp] theorem busWrite_lvl (a v : Byte) : (busWrite a v s).lvl = s.lvl := rfl
@[simp] theorem busWrite_vb (a v : Byte) : (busWrite a v s).vb = s.vb := rfl
@[simp] theorem busWrite_dcnt (a v : Byte) : (busWrite a v s).dcnt = s.dcnt := rfl
@[simp] theorem busWrite_bitLen (a v : Byte) : (busWrite a v s).bitLen = s.bitLen := rfl
@[simp] theorem busWrite_outBuf (a v : Byte) : (busWrite a v s).outBuf = s.outBuf := rfl
@[simp] theorem busWrite_olen (a v : Byte) : (busWrite a v s).olen = s.olen := rfl
@[simp] theorem busWrite_status (a v : Byte) : (busWrite a v s).status = s.status := rfl
@[simp] theorem busWrite_crcL (a v : Byte) : (busWrite a v s).crcL = s.crcL := rfl
@[simp] theorem busWrite_crcH (a v : Byte) : (busWrite a v s).crcH = s.crcH := rfl
@[simp] theorem busWrite_answers (a v : Byte) : (busWrite a v s).answers = s.answers := rfl
@[simp] theorem busWrite_reads (a v : Byte) : (busWrite a v s).reads = s.reads := rfl
@[simp] theorem busWrite_bus (a v : Byte) : (busWrite a v s).bus = s.bus ++ [.write (busAddr a) v] := rfl
@[simp] theorem busWrite_mem (a v : Byte) : (busWrite a v s).mem = Memory.write s.mem (busAddr a).toNat v := rfl
@[simp] theorem busWrite_inbox (a v : Byte) : (busWrite a v s).inbox = s.inbox := rfl
@[simp] theorem busWrite_responses (a v : Byte) : (busWrite a v s).responses = s.responses := rfl
@[simp] theorem busWrite_resetIn (a v : Byte) : (busWrite a v s).resetIn = s.resetIn := rfl

/-! ## `busRead` -/

@[simp] theorem busRead_cfg (a : Byte) : (busRead a s).cfg = s.cfg := rfl
@[simp] theorem busRead_phase (a : Byte) : (busRead a s).phase = s.phase := rfl
@[simp] theorem busRead_op (a : Byte) : (busRead a s).op = s.op := rfl
@[simp] theorem busRead_cmd (a : Byte) : (busRead a s).cmd = s.cmd := rfl
@[simp] theorem busRead_len (a : Byte) : (busRead a s).len = s.len := rfl
@[simp] theorem busRead_inBuf (a : Byte) : (busRead a s).inBuf = s.inBuf := rfl
@[simp] theorem busRead_idx (a : Byte) : (busRead a s).idx = s.idx := rfl
@[simp] theorem busRead_ien (a : Byte) : (busRead a s).ien = s.ien := rfl
@[simp] theorem busRead_wait (a : Byte) : (busRead a s).wait = s.wait := rfl
@[simp] theorem busRead_cnt (a : Byte) : (busRead a s).cnt = s.cnt := rfl
@[simp] theorem busRead_t (a : Byte) : (busRead a s).t = s.t := rfl
@[simp] theorem busRead_nirq (a : Byte) : (busRead a s).nirq = s.nirq := rfl
@[simp] theorem busRead_err (a : Byte) : (busRead a s).err = s.err := rfl
@[simp] theorem busRead_lvl (a : Byte) : (busRead a s).lvl = s.lvl := rfl
@[simp] theorem busRead_vb (a : Byte) : (busRead a s).vb = s.vb := rfl
@[simp] theorem busRead_dcnt (a : Byte) : (busRead a s).dcnt = s.dcnt := rfl
@[simp] theorem busRead_bitLen (a : Byte) : (busRead a s).bitLen = s.bitLen := rfl
@[simp] theorem busRead_outBuf (a : Byte) : (busRead a s).outBuf = s.outBuf := rfl
@[simp] theorem busRead_olen (a : Byte) : (busRead a s).olen = s.olen := rfl
@[simp] theorem busRead_status (a : Byte) : (busRead a s).status = s.status := rfl
@[simp] theorem busRead_crcL (a : Byte) : (busRead a s).crcL = s.crcL := rfl
@[simp] theorem busRead_crcH (a : Byte) : (busRead a s).crcH = s.crcH := rfl
@[simp] theorem busRead_answers (a : Byte) : (busRead a s).answers = s.answers.tail := rfl
@[simp] theorem busRead_reads (a : Byte) : (busRead a s).reads = s.reads + 1 := rfl
@[simp] theorem busRead_bus (a : Byte) : (busRead a s).bus = s.bus ++ [.read (busAddr a) (answer s)] := rfl
@[simp] theorem busRead_mem (a : Byte) : (busRead a s).mem = s.mem := rfl
@[simp] theorem busRead_inbox (a : Byte) : (busRead a s).inbox = s.inbox := rfl
@[simp] theorem busRead_responses (a : Byte) : (busRead a s).responses = s.responses := rfl
@[simp] theorem busRead_resetIn (a : Byte) : (busRead a s).resetIn = s.resetIn := rfl

/-! ## `readToT` -/

@[simp] theorem readToT_cfg (a : Byte) : (readToT a s).cfg = s.cfg := rfl
@[simp] theorem readToT_phase (a : Byte) : (readToT a s).phase = s.phase := rfl
@[simp] theorem readToT_op (a : Byte) : (readToT a s).op = s.op := rfl
@[simp] theorem readToT_cmd (a : Byte) : (readToT a s).cmd = s.cmd := rfl
@[simp] theorem readToT_len (a : Byte) : (readToT a s).len = s.len := rfl
@[simp] theorem readToT_inBuf (a : Byte) : (readToT a s).inBuf = s.inBuf := rfl
@[simp] theorem readToT_idx (a : Byte) : (readToT a s).idx = s.idx := rfl
@[simp] theorem readToT_ien (a : Byte) : (readToT a s).ien = s.ien := rfl
@[simp] theorem readToT_wait (a : Byte) : (readToT a s).wait = s.wait := rfl
@[simp] theorem readToT_cnt (a : Byte) : (readToT a s).cnt = s.cnt := rfl
@[simp] theorem readToT_t (a : Byte) : (readToT a s).t = answer s := rfl
@[simp] theorem readToT_nirq (a : Byte) : (readToT a s).nirq = s.nirq := rfl
@[simp] theorem readToT_err (a : Byte) : (readToT a s).err = s.err := rfl
@[simp] theorem readToT_lvl (a : Byte) : (readToT a s).lvl = s.lvl := rfl
@[simp] theorem readToT_vb (a : Byte) : (readToT a s).vb = s.vb := rfl
@[simp] theorem readToT_dcnt (a : Byte) : (readToT a s).dcnt = s.dcnt := rfl
@[simp] theorem readToT_bitLen (a : Byte) : (readToT a s).bitLen = s.bitLen := rfl
@[simp] theorem readToT_outBuf (a : Byte) : (readToT a s).outBuf = s.outBuf := rfl
@[simp] theorem readToT_olen (a : Byte) : (readToT a s).olen = s.olen := rfl
@[simp] theorem readToT_status (a : Byte) : (readToT a s).status = s.status := rfl
@[simp] theorem readToT_crcL (a : Byte) : (readToT a s).crcL = s.crcL := rfl
@[simp] theorem readToT_crcH (a : Byte) : (readToT a s).crcH = s.crcH := rfl
@[simp] theorem readToT_answers (a : Byte) : (readToT a s).answers = s.answers.tail := rfl
@[simp] theorem readToT_reads (a : Byte) : (readToT a s).reads = s.reads + 1 := rfl
@[simp] theorem readToT_bus (a : Byte) : (readToT a s).bus = s.bus ++ [.read (busAddr a) (answer s)] := rfl
@[simp] theorem readToT_mem (a : Byte) : (readToT a s).mem = s.mem := rfl
@[simp] theorem readToT_inbox (a : Byte) : (readToT a s).inbox = s.inbox := rfl
@[simp] theorem readToT_responses (a : Byte) : (readToT a s).responses = s.responses := rfl
@[simp] theorem readToT_resetIn (a : Byte) : (readToT a s).resetIn = s.resetIn := rfl

/-! ## `respond` -/

@[simp] theorem respond_cfg (r : Response) : (respond r s).cfg = s.cfg := rfl
@[simp] theorem respond_phase (r : Response) : (respond r s).phase = .idle := rfl
@[simp] theorem respond_op (r : Response) : (respond r s).op = s.op := rfl
@[simp] theorem respond_cmd (r : Response) : (respond r s).cmd = s.cmd := rfl
@[simp] theorem respond_len (r : Response) : (respond r s).len = s.len := rfl
@[simp] theorem respond_inBuf (r : Response) : (respond r s).inBuf = s.inBuf := rfl
@[simp] theorem respond_idx (r : Response) : (respond r s).idx = s.idx := rfl
@[simp] theorem respond_ien (r : Response) : (respond r s).ien = s.ien := rfl
@[simp] theorem respond_wait (r : Response) : (respond r s).wait = s.wait := rfl
@[simp] theorem respond_cnt (r : Response) : (respond r s).cnt = s.cnt := rfl
@[simp] theorem respond_t (r : Response) : (respond r s).t = s.t := rfl
@[simp] theorem respond_nirq (r : Response) : (respond r s).nirq = s.nirq := rfl
@[simp] theorem respond_err (r : Response) : (respond r s).err = s.err := rfl
@[simp] theorem respond_lvl (r : Response) : (respond r s).lvl = s.lvl := rfl
@[simp] theorem respond_vb (r : Response) : (respond r s).vb = s.vb := rfl
@[simp] theorem respond_dcnt (r : Response) : (respond r s).dcnt = s.dcnt := rfl
@[simp] theorem respond_bitLen (r : Response) : (respond r s).bitLen = s.bitLen := rfl
@[simp] theorem respond_outBuf (r : Response) : (respond r s).outBuf = s.outBuf := rfl
@[simp] theorem respond_olen (r : Response) : (respond r s).olen = s.olen := rfl
@[simp] theorem respond_status (r : Response) : (respond r s).status = s.status := rfl
@[simp] theorem respond_crcL (r : Response) : (respond r s).crcL = s.crcL := rfl
@[simp] theorem respond_crcH (r : Response) : (respond r s).crcH = s.crcH := rfl
@[simp] theorem respond_answers (r : Response) : (respond r s).answers = s.answers := rfl
@[simp] theorem respond_reads (r : Response) : (respond r s).reads = s.reads := rfl
@[simp] theorem respond_bus (r : Response) : (respond r s).bus = s.bus := rfl
@[simp] theorem respond_mem (r : Response) : (respond r s).mem = s.mem := rfl
@[simp] theorem respond_inbox (r : Response) : (respond r s).inbox = s.inbox := rfl
@[simp] theorem respond_responses (r : Response) : (respond r s).responses = s.responses ++ [r] := rfl
@[simp] theorem respond_resetIn (r : Response) : (respond r s).resetIn = s.resetIn := rfl

/-! ## `reject` -/

@[simp] theorem reject_cfg (r : RejectReason) : (reject r s).cfg = s.cfg := rfl
@[simp] theorem reject_phase (r : RejectReason) : (reject r s).phase = s.phase := rfl
@[simp] theorem reject_op (r : RejectReason) : (reject r s).op = s.op := rfl
@[simp] theorem reject_cmd (r : RejectReason) : (reject r s).cmd = s.cmd := rfl
@[simp] theorem reject_len (r : RejectReason) : (reject r s).len = s.len := rfl
@[simp] theorem reject_inBuf (r : RejectReason) : (reject r s).inBuf = s.inBuf := rfl
@[simp] theorem reject_idx (r : RejectReason) : (reject r s).idx = s.idx := rfl
@[simp] theorem reject_ien (r : RejectReason) : (reject r s).ien = s.ien := rfl
@[simp] theorem reject_wait (r : RejectReason) : (reject r s).wait = s.wait := rfl
@[simp] theorem reject_cnt (r : RejectReason) : (reject r s).cnt = s.cnt := rfl
@[simp] theorem reject_t (r : RejectReason) : (reject r s).t = s.t := rfl
@[simp] theorem reject_nirq (r : RejectReason) : (reject r s).nirq = s.nirq := rfl
@[simp] theorem reject_err (r : RejectReason) : (reject r s).err = s.err := rfl
@[simp] theorem reject_lvl (r : RejectReason) : (reject r s).lvl = s.lvl := rfl
@[simp] theorem reject_vb (r : RejectReason) : (reject r s).vb = s.vb := rfl
@[simp] theorem reject_dcnt (r : RejectReason) : (reject r s).dcnt = s.dcnt := rfl
@[simp] theorem reject_bitLen (r : RejectReason) : (reject r s).bitLen = s.bitLen := rfl
@[simp] theorem reject_outBuf (r : RejectReason) : (reject r s).outBuf = s.outBuf := rfl
@[simp] theorem reject_olen (r : RejectReason) : (reject r s).olen = s.olen := rfl
@[simp] theorem reject_status (r : RejectReason) : (reject r s).status = s.status := rfl
@[simp] theorem reject_crcL (r : RejectReason) : (reject r s).crcL = s.crcL := rfl
@[simp] theorem reject_crcH (r : RejectReason) : (reject r s).crcH = s.crcH := rfl
@[simp] theorem reject_answers (r : RejectReason) : (reject r s).answers = s.answers := rfl
@[simp] theorem reject_reads (r : RejectReason) : (reject r s).reads = s.reads := rfl
@[simp] theorem reject_bus (r : RejectReason) : (reject r s).bus = s.bus := rfl
@[simp] theorem reject_mem (r : RejectReason) : (reject r s).mem = s.mem := rfl
@[simp] theorem reject_inbox (r : RejectReason) : (reject r s).inbox = s.inbox := rfl
@[simp] theorem reject_responses (r : RejectReason) : (reject r s).responses = s.responses ++ [.reject r] := rfl
@[simp] theorem reject_resetIn (r : RejectReason) : (reject r s).resetIn = s.resetIn := rfl

/-! ## `tick` -/

@[simp] theorem tick_cfg : (tick s).cfg = s.cfg := rfl
@[simp] theorem tick_phase : (tick s).phase = s.phase := rfl
@[simp] theorem tick_op : (tick s).op = s.op := rfl
@[simp] theorem tick_cmd : (tick s).cmd = s.cmd := rfl
@[simp] theorem tick_len : (tick s).len = s.len := rfl
@[simp] theorem tick_inBuf : (tick s).inBuf = s.inBuf := rfl
@[simp] theorem tick_idx : (tick s).idx = s.idx := rfl
@[simp] theorem tick_ien : (tick s).ien = s.ien := rfl
@[simp] theorem tick_wait : (tick s).wait = s.wait := rfl
@[simp] theorem tick_cnt : (tick s).cnt = s.cnt := rfl
@[simp] theorem tick_t : (tick s).t = s.t := rfl
@[simp] theorem tick_nirq : (tick s).nirq = s.nirq := rfl
@[simp] theorem tick_err : (tick s).err = s.err := rfl
@[simp] theorem tick_lvl : (tick s).lvl = s.lvl := rfl
@[simp] theorem tick_vb : (tick s).vb = s.vb := rfl
@[simp] theorem tick_dcnt : (tick s).dcnt = s.dcnt := rfl
@[simp] theorem tick_bitLen : (tick s).bitLen = s.bitLen := rfl
@[simp] theorem tick_outBuf : (tick s).outBuf = s.outBuf := rfl
@[simp] theorem tick_olen : (tick s).olen = s.olen := rfl
@[simp] theorem tick_status : (tick s).status = s.status := rfl
@[simp] theorem tick_crcL : (tick s).crcL = s.crcL := rfl
@[simp] theorem tick_crcH : (tick s).crcH = s.crcH := rfl
@[simp] theorem tick_answers : (tick s).answers = s.answers := rfl
@[simp] theorem tick_reads : (tick s).reads = s.reads := rfl
@[simp] theorem tick_bus : (tick s).bus = s.bus := rfl
@[simp] theorem tick_mem : (tick s).mem = s.mem := rfl
@[simp] theorem tick_inbox : (tick s).inbox = s.inbox := rfl
@[simp] theorem tick_responses : (tick s).responses = s.responses := rfl
@[simp] theorem tick_resetIn : (tick s).resetIn = s.resetIn.map (· - 1) := rfl

/-! ## `acceptExec` -/

@[simp] theorem acceptExec_cfg (c : Byte) (d : List Byte) : (acceptExec c d s).cfg = s.cfg := rfl
@[simp] theorem acceptExec_phase (c : Byte) (d : List Byte) : (acceptExec c d s).phase = .xIenWr := rfl
@[simp] theorem acceptExec_op (c : Byte) (d : List Byte) : (acceptExec c d s).op = .exec := rfl
@[simp] theorem acceptExec_cmd (c : Byte) (d : List Byte) : (acceptExec c d s).cmd = c := rfl
@[simp] theorem acceptExec_len (c : Byte) (d : List Byte) : (acceptExec c d s).len = BitVec.ofNat 8 d.length := rfl
@[simp] theorem acceptExec_inBuf (c : Byte) (d : List Byte) : (acceptExec c d s).inBuf = loadFrom s.inBuf 0 d := rfl
@[simp] theorem acceptExec_idx (c : Byte) (d : List Byte) : (acceptExec c d s).idx = 0 := rfl
@[simp] theorem acceptExec_ien (c : Byte) (d : List Byte) : (acceptExec c d s).ien = (masksOf s.cfg c).1 := rfl
@[simp] theorem acceptExec_wait (c : Byte) (d : List Byte) : (acceptExec c d s).wait = (masksOf s.cfg c).2 := rfl
@[simp] theorem acceptExec_cnt (c : Byte) (d : List Byte) : (acceptExec c d s).cnt = s.cnt := rfl
@[simp] theorem acceptExec_t (c : Byte) (d : List Byte) : (acceptExec c d s).t = s.t := rfl
@[simp] theorem acceptExec_nirq (c : Byte) (d : List Byte) : (acceptExec c d s).nirq = s.nirq := rfl
@[simp] theorem acceptExec_err (c : Byte) (d : List Byte) : (acceptExec c d s).err = s.err := rfl
@[simp] theorem acceptExec_lvl (c : Byte) (d : List Byte) : (acceptExec c d s).lvl = s.lvl := rfl
@[simp] theorem acceptExec_vb (c : Byte) (d : List Byte) : (acceptExec c d s).vb = 0 := rfl
@[simp] theorem acceptExec_dcnt (c : Byte) (d : List Byte) : (acceptExec c d s).dcnt = s.dcnt := rfl
@[simp] theorem acceptExec_bitLen (c : Byte) (d : List Byte) : (acceptExec c d s).bitLen = 0 := rfl
@[simp] theorem acceptExec_outBuf (c : Byte) (d : List Byte) : (acceptExec c d s).outBuf = s.outBuf := rfl
@[simp] theorem acceptExec_olen (c : Byte) (d : List Byte) : (acceptExec c d s).olen = 0 := rfl
@[simp] theorem acceptExec_status (c : Byte) (d : List Byte) : (acceptExec c d s).status = s.cfg.stErr := rfl
@[simp] theorem acceptExec_crcL (c : Byte) (d : List Byte) : (acceptExec c d s).crcL = s.crcL := rfl
@[simp] theorem acceptExec_crcH (c : Byte) (d : List Byte) : (acceptExec c d s).crcH = s.crcH := rfl
@[simp] theorem acceptExec_answers (c : Byte) (d : List Byte) : (acceptExec c d s).answers = s.answers := rfl
@[simp] theorem acceptExec_reads (c : Byte) (d : List Byte) : (acceptExec c d s).reads = s.reads := rfl
@[simp] theorem acceptExec_bus (c : Byte) (d : List Byte) : (acceptExec c d s).bus = s.bus := rfl
@[simp] theorem acceptExec_mem (c : Byte) (d : List Byte) : (acceptExec c d s).mem = s.mem := rfl
@[simp] theorem acceptExec_inbox (c : Byte) (d : List Byte) : (acceptExec c d s).inbox = s.inbox := rfl
@[simp] theorem acceptExec_responses (c : Byte) (d : List Byte) : (acceptExec c d s).responses = s.responses := rfl
@[simp] theorem acceptExec_resetIn (c : Byte) (d : List Byte) : (acceptExec c d s).resetIn = s.resetIn := rfl

/-! ## `acceptCrc` -/

@[simp] theorem acceptCrc_cfg (d : List Byte) : (acceptCrc d s).cfg = s.cfg := rfl
@[simp] theorem acceptCrc_phase (d : List Byte) : (acceptCrc d s).phase = .cClrRd := rfl
@[simp] theorem acceptCrc_op (d : List Byte) : (acceptCrc d s).op = .crc := rfl
@[simp] theorem acceptCrc_cmd (d : List Byte) : (acceptCrc d s).cmd = s.cfg.cmdCalcCrc := rfl
@[simp] theorem acceptCrc_len (d : List Byte) : (acceptCrc d s).len = BitVec.ofNat 8 d.length := rfl
@[simp] theorem acceptCrc_inBuf (d : List Byte) : (acceptCrc d s).inBuf = loadFrom s.inBuf 0 d := rfl
@[simp] theorem acceptCrc_idx (d : List Byte) : (acceptCrc d s).idx = 0 := rfl
@[simp] theorem acceptCrc_ien (d : List Byte) : (acceptCrc d s).ien = 0 := rfl
@[simp] theorem acceptCrc_wait (d : List Byte) : (acceptCrc d s).wait = 0 := rfl
@[simp] theorem acceptCrc_cnt (d : List Byte) : (acceptCrc d s).cnt = s.cnt := rfl
@[simp] theorem acceptCrc_t (d : List Byte) : (acceptCrc d s).t = s.t := rfl
@[simp] theorem acceptCrc_nirq (d : List Byte) : (acceptCrc d s).nirq = s.nirq := rfl
@[simp] theorem acceptCrc_err (d : List Byte) : (acceptCrc d s).err = s.err := rfl
@[simp] theorem acceptCrc_lvl (d : List Byte) : (acceptCrc d s).lvl = s.lvl := rfl
@[simp] theorem acceptCrc_vb (d : List Byte) : (acceptCrc d s).vb = s.vb := rfl
@[simp] theorem acceptCrc_dcnt (d : List Byte) : (acceptCrc d s).dcnt = s.dcnt := rfl
@[simp] theorem acceptCrc_bitLen (d : List Byte) : (acceptCrc d s).bitLen = s.bitLen := rfl
@[simp] theorem acceptCrc_outBuf (d : List Byte) : (acceptCrc d s).outBuf = s.outBuf := rfl
@[simp] theorem acceptCrc_olen (d : List Byte) : (acceptCrc d s).olen = s.olen := rfl
@[simp] theorem acceptCrc_status (d : List Byte) : (acceptCrc d s).status = s.status := rfl
@[simp] theorem acceptCrc_crcL (d : List Byte) : (acceptCrc d s).crcL = s.crcL := rfl
@[simp] theorem acceptCrc_crcH (d : List Byte) : (acceptCrc d s).crcH = s.crcH := rfl
@[simp] theorem acceptCrc_answers (d : List Byte) : (acceptCrc d s).answers = s.answers := rfl
@[simp] theorem acceptCrc_reads (d : List Byte) : (acceptCrc d s).reads = s.reads := rfl
@[simp] theorem acceptCrc_bus (d : List Byte) : (acceptCrc d s).bus = s.bus := rfl
@[simp] theorem acceptCrc_mem (d : List Byte) : (acceptCrc d s).mem = s.mem := rfl
@[simp] theorem acceptCrc_inbox (d : List Byte) : (acceptCrc d s).inbox = s.inbox := rfl
@[simp] theorem acceptCrc_responses (d : List Byte) : (acceptCrc d s).responses = s.responses := rfl
@[simp] theorem acceptCrc_resetIn (d : List Byte) : (acceptCrc d s).resetIn = s.resetIn := rfl

/-! ## `resetEngine` -/

@[simp] theorem resetEngine_cfg : (resetEngine s).cfg = s.cfg := rfl
@[simp] theorem resetEngine_phase : (resetEngine s).phase = .idle := rfl
@[simp] theorem resetEngine_op : (resetEngine s).op = State.reset.op := rfl
@[simp] theorem resetEngine_cmd : (resetEngine s).cmd = State.reset.cmd := rfl
@[simp] theorem resetEngine_len : (resetEngine s).len = State.reset.len := rfl
@[simp] theorem resetEngine_inBuf : (resetEngine s).inBuf = State.reset.inBuf := rfl
@[simp] theorem resetEngine_idx : (resetEngine s).idx = State.reset.idx := rfl
@[simp] theorem resetEngine_ien : (resetEngine s).ien = State.reset.ien := rfl
@[simp] theorem resetEngine_wait : (resetEngine s).wait = State.reset.wait := rfl
@[simp] theorem resetEngine_cnt : (resetEngine s).cnt = State.reset.cnt := rfl
@[simp] theorem resetEngine_t : (resetEngine s).t = State.reset.t := rfl
@[simp] theorem resetEngine_nirq : (resetEngine s).nirq = State.reset.nirq := rfl
@[simp] theorem resetEngine_err : (resetEngine s).err = State.reset.err := rfl
@[simp] theorem resetEngine_lvl : (resetEngine s).lvl = State.reset.lvl := rfl
@[simp] theorem resetEngine_vb : (resetEngine s).vb = State.reset.vb := rfl
@[simp] theorem resetEngine_dcnt : (resetEngine s).dcnt = State.reset.dcnt := rfl
@[simp] theorem resetEngine_bitLen : (resetEngine s).bitLen = State.reset.bitLen := rfl
@[simp] theorem resetEngine_outBuf : (resetEngine s).outBuf = State.reset.outBuf := rfl
@[simp] theorem resetEngine_olen : (resetEngine s).olen = State.reset.olen := rfl
@[simp] theorem resetEngine_status : (resetEngine s).status = s.cfg.stErr := rfl
@[simp] theorem resetEngine_crcL : (resetEngine s).crcL = State.reset.crcL := rfl
@[simp] theorem resetEngine_crcH : (resetEngine s).crcH = State.reset.crcH := rfl
@[simp] theorem resetEngine_answers : (resetEngine s).answers = s.answers := rfl
@[simp] theorem resetEngine_reads : (resetEngine s).reads = s.reads := rfl
@[simp] theorem resetEngine_bus : (resetEngine s).bus = s.bus := rfl
@[simp] theorem resetEngine_mem : (resetEngine s).mem = s.mem := rfl
@[simp] theorem resetEngine_inbox : (resetEngine s).inbox = s.inbox := rfl
@[simp] theorem resetEngine_responses : (resetEngine s).responses = s.responses := rfl
@[simp] theorem resetEngine_resetIn : (resetEngine s).resetIn = none := rfl

/-! ## `setb` -/

@[simp] theorem setb_cfg (a m : Byte) : (setb a m s).cfg = s.cfg := rfl
@[simp] theorem setb_phase (a m : Byte) : (setb a m s).phase = s.phase := rfl
@[simp] theorem setb_op (a m : Byte) : (setb a m s).op = s.op := rfl
@[simp] theorem setb_cmd (a m : Byte) : (setb a m s).cmd = s.cmd := rfl
@[simp] theorem setb_len (a m : Byte) : (setb a m s).len = s.len := rfl
@[simp] theorem setb_inBuf (a m : Byte) : (setb a m s).inBuf = s.inBuf := rfl
@[simp] theorem setb_idx (a m : Byte) : (setb a m s).idx = s.idx := rfl
@[simp] theorem setb_ien (a m : Byte) : (setb a m s).ien = s.ien := rfl
@[simp] theorem setb_wait (a m : Byte) : (setb a m s).wait = s.wait := rfl
@[simp] theorem setb_cnt (a m : Byte) : (setb a m s).cnt = s.cnt := rfl
@[simp] theorem setb_t (a m : Byte) : (setb a m s).t = answer s := rfl
@[simp] theorem setb_nirq (a m : Byte) : (setb a m s).nirq = s.nirq := rfl
@[simp] theorem setb_err (a m : Byte) : (setb a m s).err = s.err := rfl
@[simp] theorem setb_lvl (a m : Byte) : (setb a m s).lvl = s.lvl := rfl
@[simp] theorem setb_vb (a m : Byte) : (setb a m s).vb = s.vb := rfl
@[simp] theorem setb_dcnt (a m : Byte) : (setb a m s).dcnt = s.dcnt := rfl
@[simp] theorem setb_bitLen (a m : Byte) : (setb a m s).bitLen = s.bitLen := rfl
@[simp] theorem setb_outBuf (a m : Byte) : (setb a m s).outBuf = s.outBuf := rfl
@[simp] theorem setb_olen (a m : Byte) : (setb a m s).olen = s.olen := rfl
@[simp] theorem setb_status (a m : Byte) : (setb a m s).status = s.status := rfl
@[simp] theorem setb_crcL (a m : Byte) : (setb a m s).crcL = s.crcL := rfl
@[simp] theorem setb_crcH (a m : Byte) : (setb a m s).crcH = s.crcH := rfl
@[simp] theorem setb_answers (a m : Byte) : (setb a m s).answers = s.answers.tail := rfl
@[simp] theorem setb_reads (a m : Byte) : (setb a m s).reads = s.reads + 1 := rfl
@[simp] theorem setb_bus (a m : Byte) : (setb a m s).bus = s.bus ++ [.read (busAddr a) (answer s)] ++ [.write (busAddr a) (setBits (answer s) m)] := rfl
@[simp] theorem setb_mem (a m : Byte) : (setb a m s).mem = Memory.write s.mem (busAddr a).toNat (setBits (answer s) m) := rfl
@[simp] theorem setb_inbox (a m : Byte) : (setb a m s).inbox = s.inbox := rfl
@[simp] theorem setb_responses (a m : Byte) : (setb a m s).responses = s.responses := rfl
@[simp] theorem setb_resetIn (a m : Byte) : (setb a m s).resetIn = s.resetIn := rfl

/-! ## `clrb` -/

@[simp] theorem clrb_cfg (a m : Byte) : (clrb a m s).cfg = s.cfg := rfl
@[simp] theorem clrb_phase (a m : Byte) : (clrb a m s).phase = s.phase := rfl
@[simp] theorem clrb_op (a m : Byte) : (clrb a m s).op = s.op := rfl
@[simp] theorem clrb_cmd (a m : Byte) : (clrb a m s).cmd = s.cmd := rfl
@[simp] theorem clrb_len (a m : Byte) : (clrb a m s).len = s.len := rfl
@[simp] theorem clrb_inBuf (a m : Byte) : (clrb a m s).inBuf = s.inBuf := rfl
@[simp] theorem clrb_idx (a m : Byte) : (clrb a m s).idx = s.idx := rfl
@[simp] theorem clrb_ien (a m : Byte) : (clrb a m s).ien = s.ien := rfl
@[simp] theorem clrb_wait (a m : Byte) : (clrb a m s).wait = s.wait := rfl
@[simp] theorem clrb_cnt (a m : Byte) : (clrb a m s).cnt = s.cnt := rfl
@[simp] theorem clrb_t (a m : Byte) : (clrb a m s).t = answer s := rfl
@[simp] theorem clrb_nirq (a m : Byte) : (clrb a m s).nirq = s.nirq := rfl
@[simp] theorem clrb_err (a m : Byte) : (clrb a m s).err = s.err := rfl
@[simp] theorem clrb_lvl (a m : Byte) : (clrb a m s).lvl = s.lvl := rfl
@[simp] theorem clrb_vb (a m : Byte) : (clrb a m s).vb = s.vb := rfl
@[simp] theorem clrb_dcnt (a m : Byte) : (clrb a m s).dcnt = s.dcnt := rfl
@[simp] theorem clrb_bitLen (a m : Byte) : (clrb a m s).bitLen = s.bitLen := rfl
@[simp] theorem clrb_outBuf (a m : Byte) : (clrb a m s).outBuf = s.outBuf := rfl
@[simp] theorem clrb_olen (a m : Byte) : (clrb a m s).olen = s.olen := rfl
@[simp] theorem clrb_status (a m : Byte) : (clrb a m s).status = s.status := rfl
@[simp] theorem clrb_crcL (a m : Byte) : (clrb a m s).crcL = s.crcL := rfl
@[simp] theorem clrb_crcH (a m : Byte) : (clrb a m s).crcH = s.crcH := rfl
@[simp] theorem clrb_answers (a m : Byte) : (clrb a m s).answers = s.answers.tail := rfl
@[simp] theorem clrb_reads (a m : Byte) : (clrb a m s).reads = s.reads + 1 := rfl
@[simp] theorem clrb_bus (a m : Byte) : (clrb a m s).bus = s.bus ++ [.read (busAddr a) (answer s)] ++ [.write (busAddr a) (clearBits (answer s) m)] := rfl
@[simp] theorem clrb_mem (a m : Byte) : (clrb a m s).mem = Memory.write s.mem (busAddr a).toNat (clearBits (answer s) m) := rfl
@[simp] theorem clrb_inbox (a m : Byte) : (clrb a m s).inbox = s.inbox := rfl
@[simp] theorem clrb_responses (a m : Byte) : (clrb a m s).responses = s.responses := rfl
@[simp] theorem clrb_resetIn (a m : Byte) : (clrb a m s).resetIn = s.resetIn := rfl

/-! ## `pollOnce` -/

@[simp] theorem pollOnce_cfg (a : Byte) : (pollOnce a s).cfg = s.cfg := rfl
@[simp] theorem pollOnce_phase (a : Byte) : (pollOnce a s).phase = s.phase := rfl
@[simp] theorem pollOnce_op (a : Byte) : (pollOnce a s).op = s.op := rfl
@[simp] theorem pollOnce_cmd (a : Byte) : (pollOnce a s).cmd = s.cmd := rfl
@[simp] theorem pollOnce_len (a : Byte) : (pollOnce a s).len = s.len := rfl
@[simp] theorem pollOnce_inBuf (a : Byte) : (pollOnce a s).inBuf = s.inBuf := rfl
@[simp] theorem pollOnce_idx (a : Byte) : (pollOnce a s).idx = s.idx := rfl
@[simp] theorem pollOnce_ien (a : Byte) : (pollOnce a s).ien = s.ien := rfl
@[simp] theorem pollOnce_wait (a : Byte) : (pollOnce a s).wait = s.wait := rfl
@[simp] theorem pollOnce_cnt (a : Byte) : (pollOnce a s).cnt = s.cnt - 1 := rfl
@[simp] theorem pollOnce_t (a : Byte) : (pollOnce a s).t = s.t := rfl
@[simp] theorem pollOnce_nirq (a : Byte) : (pollOnce a s).nirq = answer s := rfl
@[simp] theorem pollOnce_err (a : Byte) : (pollOnce a s).err = s.err := rfl
@[simp] theorem pollOnce_lvl (a : Byte) : (pollOnce a s).lvl = s.lvl := rfl
@[simp] theorem pollOnce_vb (a : Byte) : (pollOnce a s).vb = s.vb := rfl
@[simp] theorem pollOnce_dcnt (a : Byte) : (pollOnce a s).dcnt = s.dcnt := rfl
@[simp] theorem pollOnce_bitLen (a : Byte) : (pollOnce a s).bitLen = s.bitLen := rfl
@[simp] theorem pollOnce_outBuf (a : Byte) : (pollOnce a s).outBuf = s.outBuf := rfl
@[simp] theorem pollOnce_olen (a : Byte) : (pollOnce a s).olen = s.olen := rfl
@[simp] theorem pollOnce_status (a : Byte) : (pollOnce a s).status = s.status := rfl
@[simp] theorem pollOnce_crcL (a : Byte) : (pollOnce a s).crcL = s.crcL := rfl
@[simp] theorem pollOnce_crcH (a : Byte) : (pollOnce a s).crcH = s.crcH := rfl
@[simp] theorem pollOnce_answers (a : Byte) : (pollOnce a s).answers = s.answers.tail := rfl
@[simp] theorem pollOnce_reads (a : Byte) : (pollOnce a s).reads = s.reads + 1 := rfl
@[simp] theorem pollOnce_bus (a : Byte) : (pollOnce a s).bus = s.bus ++ [.read (busAddr a) (answer s)] := rfl
@[simp] theorem pollOnce_mem (a : Byte) : (pollOnce a s).mem = s.mem := rfl
@[simp] theorem pollOnce_inbox (a : Byte) : (pollOnce a s).inbox = s.inbox := rfl
@[simp] theorem pollOnce_responses (a : Byte) : (pollOnce a s).responses = s.responses := rfl
@[simp] theorem pollOnce_resetIn (a : Byte) : (pollOnce a s).resetIn = s.resetIn := rfl

/-! ## `loadByte` -/

@[simp] theorem loadByte_cfg : (loadByte s).cfg = s.cfg := rfl
@[simp] theorem loadByte_phase : (loadByte s).phase = s.phase := rfl
@[simp] theorem loadByte_op : (loadByte s).op = s.op := rfl
@[simp] theorem loadByte_cmd : (loadByte s).cmd = s.cmd := rfl
@[simp] theorem loadByte_len : (loadByte s).len = s.len := rfl
@[simp] theorem loadByte_inBuf : (loadByte s).inBuf = s.inBuf := rfl
@[simp] theorem loadByte_idx : (loadByte s).idx = s.idx + 1 := rfl
@[simp] theorem loadByte_ien : (loadByte s).ien = s.ien := rfl
@[simp] theorem loadByte_wait : (loadByte s).wait = s.wait := rfl
@[simp] theorem loadByte_cnt : (loadByte s).cnt = s.cnt := rfl
@[simp] theorem loadByte_t : (loadByte s).t = s.t := rfl
@[simp] theorem loadByte_nirq : (loadByte s).nirq = s.nirq := rfl
@[simp] theorem loadByte_err : (loadByte s).err = s.err := rfl
@[simp] theorem loadByte_lvl : (loadByte s).lvl = s.lvl := rfl
@[simp] theorem loadByte_vb : (loadByte s).vb = s.vb := rfl
@[simp] theorem loadByte_dcnt : (loadByte s).dcnt = s.dcnt := rfl
@[simp] theorem loadByte_bitLen : (loadByte s).bitLen = s.bitLen := rfl
@[simp] theorem loadByte_outBuf : (loadByte s).outBuf = s.outBuf := rfl
@[simp] theorem loadByte_olen : (loadByte s).olen = s.olen := rfl
@[simp] theorem loadByte_status : (loadByte s).status = s.status := rfl
@[simp] theorem loadByte_crcL : (loadByte s).crcL = s.crcL := rfl
@[simp] theorem loadByte_crcH : (loadByte s).crcH = s.crcH := rfl
@[simp] theorem loadByte_answers : (loadByte s).answers = s.answers := rfl
@[simp] theorem loadByte_reads : (loadByte s).reads = s.reads := rfl
@[simp] theorem loadByte_bus : (loadByte s).bus = s.bus ++ [.write (busAddr s.cfg.regFifoData) (inByte s)] := rfl
@[simp] theorem loadByte_mem : (loadByte s).mem = Memory.write s.mem (busAddr s.cfg.regFifoData).toNat (inByte s) := rfl
@[simp] theorem loadByte_inbox : (loadByte s).inbox = s.inbox := rfl
@[simp] theorem loadByte_responses : (loadByte s).responses = s.responses := rfl
@[simp] theorem loadByte_resetIn : (loadByte s).resetIn = s.resetIn := rfl

/-! ## `loadCnt` -/

@[simp] theorem loadCnt_cfg (b : BitVec 16) : (loadCnt b s).cfg = s.cfg := rfl
@[simp] theorem loadCnt_phase (b : BitVec 16) : (loadCnt b s).phase = s.phase := rfl
@[simp] theorem loadCnt_op (b : BitVec 16) : (loadCnt b s).op = s.op := rfl
@[simp] theorem loadCnt_cmd (b : BitVec 16) : (loadCnt b s).cmd = s.cmd := rfl
@[simp] theorem loadCnt_len (b : BitVec 16) : (loadCnt b s).len = s.len := rfl
@[simp] theorem loadCnt_inBuf (b : BitVec 16) : (loadCnt b s).inBuf = s.inBuf := rfl
@[simp] theorem loadCnt_idx (b : BitVec 16) : (loadCnt b s).idx = s.idx := rfl
@[simp] theorem loadCnt_ien (b : BitVec 16) : (loadCnt b s).ien = s.ien := rfl
@[simp] theorem loadCnt_wait (b : BitVec 16) : (loadCnt b s).wait = s.wait := rfl
@[simp] theorem loadCnt_cnt (b : BitVec 16) : (loadCnt b s).cnt = b := rfl
@[simp] theorem loadCnt_t (b : BitVec 16) : (loadCnt b s).t = s.t := rfl
@[simp] theorem loadCnt_nirq (b : BitVec 16) : (loadCnt b s).nirq = s.nirq := rfl
@[simp] theorem loadCnt_err (b : BitVec 16) : (loadCnt b s).err = s.err := rfl
@[simp] theorem loadCnt_lvl (b : BitVec 16) : (loadCnt b s).lvl = s.lvl := rfl
@[simp] theorem loadCnt_vb (b : BitVec 16) : (loadCnt b s).vb = s.vb := rfl
@[simp] theorem loadCnt_dcnt (b : BitVec 16) : (loadCnt b s).dcnt = s.dcnt := rfl
@[simp] theorem loadCnt_bitLen (b : BitVec 16) : (loadCnt b s).bitLen = s.bitLen := rfl
@[simp] theorem loadCnt_outBuf (b : BitVec 16) : (loadCnt b s).outBuf = s.outBuf := rfl
@[simp] theorem loadCnt_olen (b : BitVec 16) : (loadCnt b s).olen = s.olen := rfl
@[simp] theorem loadCnt_status (b : BitVec 16) : (loadCnt b s).status = s.status := rfl
@[simp] theorem loadCnt_crcL (b : BitVec 16) : (loadCnt b s).crcL = s.crcL := rfl
@[simp] theorem loadCnt_crcH (b : BitVec 16) : (loadCnt b s).crcH = s.crcH := rfl
@[simp] theorem loadCnt_answers (b : BitVec 16) : (loadCnt b s).answers = s.answers := rfl
@[simp] theorem loadCnt_reads (b : BitVec 16) : (loadCnt b s).reads = s.reads := rfl
@[simp] theorem loadCnt_bus (b : BitVec 16) : (loadCnt b s).bus = s.bus := rfl
@[simp] theorem loadCnt_mem (b : BitVec 16) : (loadCnt b s).mem = s.mem := rfl
@[simp] theorem loadCnt_inbox (b : BitVec 16) : (loadCnt b s).inbox = s.inbox := rfl
@[simp] theorem loadCnt_responses (b : BitVec 16) : (loadCnt b s).responses = s.responses := rfl
@[simp] theorem loadCnt_resetIn (b : BitVec 16) : (loadCnt b s).resetIn = s.resetIn := rfl

/-! ## `setStatus` -/

@[simp] theorem setStatus_cfg (st : BitVec 2) : (setStatus st s).cfg = s.cfg := rfl
@[simp] theorem setStatus_phase (st : BitVec 2) : (setStatus st s).phase = s.phase := rfl
@[simp] theorem setStatus_op (st : BitVec 2) : (setStatus st s).op = s.op := rfl
@[simp] theorem setStatus_cmd (st : BitVec 2) : (setStatus st s).cmd = s.cmd := rfl
@[simp] theorem setStatus_len (st : BitVec 2) : (setStatus st s).len = s.len := rfl
@[simp] theorem setStatus_inBuf (st : BitVec 2) : (setStatus st s).inBuf = s.inBuf := rfl
@[simp] theorem setStatus_idx (st : BitVec 2) : (setStatus st s).idx = s.idx := rfl
@[simp] theorem setStatus_ien (st : BitVec 2) : (setStatus st s).ien = s.ien := rfl
@[simp] theorem setStatus_wait (st : BitVec 2) : (setStatus st s).wait = s.wait := rfl
@[simp] theorem setStatus_cnt (st : BitVec 2) : (setStatus st s).cnt = s.cnt := rfl
@[simp] theorem setStatus_t (st : BitVec 2) : (setStatus st s).t = s.t := rfl
@[simp] theorem setStatus_nirq (st : BitVec 2) : (setStatus st s).nirq = s.nirq := rfl
@[simp] theorem setStatus_err (st : BitVec 2) : (setStatus st s).err = s.err := rfl
@[simp] theorem setStatus_lvl (st : BitVec 2) : (setStatus st s).lvl = s.lvl := rfl
@[simp] theorem setStatus_vb (st : BitVec 2) : (setStatus st s).vb = s.vb := rfl
@[simp] theorem setStatus_dcnt (st : BitVec 2) : (setStatus st s).dcnt = s.dcnt := rfl
@[simp] theorem setStatus_bitLen (st : BitVec 2) : (setStatus st s).bitLen = s.bitLen := rfl
@[simp] theorem setStatus_outBuf (st : BitVec 2) : (setStatus st s).outBuf = s.outBuf := rfl
@[simp] theorem setStatus_olen (st : BitVec 2) : (setStatus st s).olen = s.olen := rfl
@[simp] theorem setStatus_status (st : BitVec 2) : (setStatus st s).status = st := rfl
@[simp] theorem setStatus_crcL (st : BitVec 2) : (setStatus st s).crcL = s.crcL := rfl
@[simp] theorem setStatus_crcH (st : BitVec 2) : (setStatus st s).crcH = s.crcH := rfl
@[simp] theorem setStatus_answers (st : BitVec 2) : (setStatus st s).answers = s.answers := rfl
@[simp] theorem setStatus_reads (st : BitVec 2) : (setStatus st s).reads = s.reads := rfl
@[simp] theorem setStatus_bus (st : BitVec 2) : (setStatus st s).bus = s.bus := rfl
@[simp] theorem setStatus_mem (st : BitVec 2) : (setStatus st s).mem = s.mem := rfl
@[simp] theorem setStatus_inbox (st : BitVec 2) : (setStatus st s).inbox = s.inbox := rfl
@[simp] theorem setStatus_responses (st : BitVec 2) : (setStatus st s).responses = s.responses := rfl
@[simp] theorem setStatus_resetIn (st : BitVec 2) : (setStatus st s).resetIn = s.resetIn := rfl

/-! ## `readErr` -/

@[simp] theorem readErr_cfg : (readErr s).cfg = s.cfg := rfl
@[simp] theorem readErr_phase : (readErr s).phase = s.phase := rfl
@[simp] theorem readErr_op : (readErr s).op = s.op := rfl
@[simp] theorem readErr_cmd : (readErr s).cmd = s.cmd := rfl
@[simp] theorem readErr_len : (readErr s).len = s.len := rfl
@[simp] theorem readErr_inBuf : (readErr s).inBuf = s.inBuf := rfl
@[simp] theorem readErr_idx : (readErr s).idx = s.idx := rfl
@[simp] theorem readErr_ien : (readErr s).ien = s.ien := rfl
@[simp] theorem readErr_wait : (readErr s).wait = s.wait := rfl
@[simp] theorem readErr_cnt : (readErr s).cnt = s.cnt := rfl
@[simp] theorem readErr_t : (readErr s).t = s.t := rfl
@[simp] theorem readErr_nirq : (readErr s).nirq = s.nirq := rfl
@[simp] theorem readErr_err : (readErr s).err = answer s := rfl
@[simp] theorem readErr_lvl : (readErr s).lvl = s.lvl := rfl
@[simp] theorem readErr_vb : (readErr s).vb = s.vb := rfl
@[simp] theorem readErr_dcnt : (readErr s).dcnt = s.dcnt := rfl
@[simp] theorem readErr_bitLen : (readErr s).bitLen = s.bitLen := rfl
@[simp] theorem readErr_outBuf : (readErr s).outBuf = s.outBuf := rfl
@[simp] theorem readErr_olen : (readErr s).olen = s.olen := rfl
@[simp] theorem readErr_status : (readErr s).status = s.status := rfl
@[simp] theorem readErr_crcL : (readErr s).crcL = s.crcL := rfl
@[simp] theorem readErr_crcH : (readErr s).crcH = s.crcH := rfl
@[simp] theorem readErr_answers : (readErr s).answers = s.answers.tail := rfl
@[simp] theorem readErr_reads : (readErr s).reads = s.reads + 1 := rfl
@[simp] theorem readErr_bus : (readErr s).bus = s.bus ++ [.read (busAddr s.cfg.regError) (answer s)] := rfl
@[simp] theorem readErr_mem : (readErr s).mem = s.mem := rfl
@[simp] theorem readErr_inbox : (readErr s).inbox = s.inbox := rfl
@[simp] theorem readErr_responses : (readErr s).responses = s.responses := rfl
@[simp] theorem readErr_resetIn : (readErr s).resetIn = s.resetIn := rfl

/-! ## `readLevel` -/

@[simp] theorem readLevel_cfg : (readLevel s).cfg = s.cfg := rfl
@[simp] theorem readLevel_phase : (readLevel s).phase = s.phase := rfl
@[simp] theorem readLevel_op : (readLevel s).op = s.op := rfl
@[simp] theorem readLevel_cmd : (readLevel s).cmd = s.cmd := rfl
@[simp] theorem readLevel_len : (readLevel s).len = s.len := rfl
@[simp] theorem readLevel_inBuf : (readLevel s).inBuf = s.inBuf := rfl
@[simp] theorem readLevel_idx : (readLevel s).idx = s.idx := rfl
@[simp] theorem readLevel_ien : (readLevel s).ien = s.ien := rfl
@[simp] theorem readLevel_wait : (readLevel s).wait = s.wait := rfl
@[simp] theorem readLevel_cnt : (readLevel s).cnt = s.cnt := rfl
@[simp] theorem readLevel_t : (readLevel s).t = s.t := rfl
@[simp] theorem readLevel_nirq : (readLevel s).nirq = s.nirq := rfl
@[simp] theorem readLevel_err : (readLevel s).err = s.err := rfl
@[simp] theorem readLevel_lvl : (readLevel s).lvl = answer s := rfl
@[simp] theorem readLevel_vb : (readLevel s).vb = s.vb := rfl
@[simp] theorem readLevel_dcnt : (readLevel s).dcnt = s.dcnt := rfl
@[simp] theorem readLevel_bitLen : (readLevel s).bitLen = s.bitLen := rfl
@[simp] theorem readLevel_outBuf : (readLevel s).outBuf = s.outBuf := rfl
@[simp] theorem readLevel_olen : (readLevel s).olen = s.olen := rfl
@[simp] theorem readLevel_status : (readLevel s).status = s.status := rfl
@[simp] theorem readLevel_crcL : (readLevel s).crcL = s.crcL := rfl
@[simp] theorem readLevel_crcH : (readLevel s).crcH = s.crcH := rfl
@[simp] theorem readLevel_answers : (readLevel s).answers = s.answers.tail := rfl
@[simp] theorem readLevel_reads : (readLevel s).reads = s.reads + 1 := rfl
@[simp] theorem readLevel_bus : (readLevel s).bus = s.bus ++ [.read (busAddr s.cfg.regFifoLevel) (answer s)] := rfl
@[simp] theorem readLevel_mem : (readLevel s).mem = s.mem := rfl
@[simp] theorem readLevel_inbox : (readLevel s).inbox = s.inbox := rfl
@[simp] theorem readLevel_responses : (readLevel s).responses = s.responses := rfl
@[simp] theorem readLevel_resetIn : (readLevel s).resetIn = s.resetIn := rfl

/-! ## `readLast` -/

@[simp] theorem readLast_cfg : (readLast s).cfg = s.cfg := rfl
@[simp] theorem readLast_phase : (readLast s).phase = s.phase := rfl
@[simp] theorem readLast_op : (readLast s).op = s.op := rfl
@[simp] theorem readLast_cmd : (readLast s).cmd = s.cmd := rfl
@[simp] theorem readLast_len : (readLast s).len = s.len := rfl
@[simp] theorem readLast_inBuf : (readLast s).inBuf = s.inBuf := rfl
@[simp] theorem readLast_idx : (readLast s).idx = 0 := rfl
@[simp] theorem readLast_ien : (readLast s).ien = s.ien := rfl
@[simp] theorem readLast_wait : (readLast s).wait = s.wait := rfl
@[simp] theorem readLast_cnt : (readLast s).cnt = s.cnt := rfl
@[simp] theorem readLast_t : (readLast s).t = s.t := rfl
@[simp] theorem readLast_nirq : (readLast s).nirq = s.nirq := rfl
@[simp] theorem readLast_err : (readLast s).err = s.err := rfl
@[simp] theorem readLast_lvl : (readLast s).lvl = s.lvl := rfl
@[simp] theorem readLast_vb : (readLast s).vb = validBitsOf s.cfg.lastBitsLsb (answer s) := rfl
@[simp] theorem readLast_dcnt : (readLast s).dcnt = drainCount s.cfg.maxLen s.lvl := rfl
@[simp] theorem readLast_bitLen : (readLast s).bitLen = bitLenOf s.lvl (validBitsOf s.cfg.lastBitsLsb (answer s)) := rfl
@[simp] theorem readLast_outBuf : (readLast s).outBuf = s.outBuf := rfl
@[simp] theorem readLast_olen : (readLast s).olen = s.olen := rfl
@[simp] theorem readLast_status : (readLast s).status = s.status := rfl
@[simp] theorem readLast_crcL : (readLast s).crcL = s.crcL := rfl
@[simp] theorem readLast_crcH : (readLast s).crcH = s.crcH := rfl
@[simp] theorem readLast_answers : (readLast s).answers = s.answers.tail := rfl
@[simp] theorem readLast_reads : (readLast s).reads = s.reads + 1 := rfl
@[simp] theorem readLast_bus : (readLast s).bus = s.bus ++ [.read (busAddr s.cfg.regControl) (answer s)] := rfl
@[simp] theorem readLast_mem : (readLast s).mem = s.mem := rfl
@[simp] theorem readLast_inbox : (readLast s).inbox = s.inbox := rfl
@[simp] theorem readLast_responses : (readLast s).responses = s.responses := rfl
@[simp] theorem readLast_resetIn : (readLast s).resetIn = s.resetIn := rfl

/-! ## `readCrcL` -/

@[simp] theorem readCrcL_cfg : (readCrcL s).cfg = s.cfg := rfl
@[simp] theorem readCrcL_phase : (readCrcL s).phase = s.phase := rfl
@[simp] theorem readCrcL_op : (readCrcL s).op = s.op := rfl
@[simp] theorem readCrcL_cmd : (readCrcL s).cmd = s.cmd := rfl
@[simp] theorem readCrcL_len : (readCrcL s).len = s.len := rfl
@[simp] theorem readCrcL_inBuf : (readCrcL s).inBuf = s.inBuf := rfl
@[simp] theorem readCrcL_idx : (readCrcL s).idx = s.idx := rfl
@[simp] theorem readCrcL_ien : (readCrcL s).ien = s.ien := rfl
@[simp] theorem readCrcL_wait : (readCrcL s).wait = s.wait := rfl
@[simp] theorem readCrcL_cnt : (readCrcL s).cnt = s.cnt := rfl
@[simp] theorem readCrcL_t : (readCrcL s).t = s.t := rfl
@[simp] theorem readCrcL_nirq : (readCrcL s).nirq = s.nirq := rfl
@[simp] theorem readCrcL_err : (readCrcL s).err = s.err := rfl
@[simp] theorem readCrcL_lvl : (readCrcL s).lvl = s.lvl := rfl
@[simp] theorem readCrcL_vb : (readCrcL s).vb = s.vb := rfl
@[simp] theorem readCrcL_dcnt : (readCrcL s).dcnt = s.dcnt := rfl
@[simp] theorem readCrcL_bitLen : (readCrcL s).bitLen = s.bitLen := rfl
@[simp] theorem readCrcL_outBuf : (readCrcL s).outBuf = s.outBuf := rfl
@[simp] theorem readCrcL_olen : (readCrcL s).olen = s.olen := rfl
@[simp] theorem readCrcL_status : (readCrcL s).status = s.status := rfl
@[simp] theorem readCrcL_crcL : (readCrcL s).crcL = answer s := rfl
@[simp] theorem readCrcL_crcH : (readCrcL s).crcH = s.crcH := rfl
@[simp] theorem readCrcL_answers : (readCrcL s).answers = s.answers.tail := rfl
@[simp] theorem readCrcL_reads : (readCrcL s).reads = s.reads + 1 := rfl
@[simp] theorem readCrcL_bus : (readCrcL s).bus = s.bus ++ [.read (busAddr s.cfg.regCrcL) (answer s)] := rfl
@[simp] theorem readCrcL_mem : (readCrcL s).mem = s.mem := rfl
@[simp] theorem readCrcL_inbox : (readCrcL s).inbox = s.inbox := rfl
@[simp] theorem readCrcL_responses : (readCrcL s).responses = s.responses := rfl
@[simp] theorem readCrcL_resetIn : (readCrcL s).resetIn = s.resetIn := rfl

/-! ## `readCrcH` -/

@[simp] theorem readCrcH_cfg : (readCrcH s).cfg = s.cfg := rfl
@[simp] theorem readCrcH_phase : (readCrcH s).phase = s.phase := rfl
@[simp] theorem readCrcH_op : (readCrcH s).op = s.op := rfl
@[simp] theorem readCrcH_cmd : (readCrcH s).cmd = s.cmd := rfl
@[simp] theorem readCrcH_len : (readCrcH s).len = s.len := rfl
@[simp] theorem readCrcH_inBuf : (readCrcH s).inBuf = s.inBuf := rfl
@[simp] theorem readCrcH_idx : (readCrcH s).idx = s.idx := rfl
@[simp] theorem readCrcH_ien : (readCrcH s).ien = s.ien := rfl
@[simp] theorem readCrcH_wait : (readCrcH s).wait = s.wait := rfl
@[simp] theorem readCrcH_cnt : (readCrcH s).cnt = s.cnt := rfl
@[simp] theorem readCrcH_t : (readCrcH s).t = s.t := rfl
@[simp] theorem readCrcH_nirq : (readCrcH s).nirq = s.nirq := rfl
@[simp] theorem readCrcH_err : (readCrcH s).err = s.err := rfl
@[simp] theorem readCrcH_lvl : (readCrcH s).lvl = s.lvl := rfl
@[simp] theorem readCrcH_vb : (readCrcH s).vb = s.vb := rfl
@[simp] theorem readCrcH_dcnt : (readCrcH s).dcnt = s.dcnt := rfl
@[simp] theorem readCrcH_bitLen : (readCrcH s).bitLen = s.bitLen := rfl
@[simp] theorem readCrcH_outBuf : (readCrcH s).outBuf = s.outBuf := rfl
@[simp] theorem readCrcH_olen : (readCrcH s).olen = s.olen := rfl
@[simp] theorem readCrcH_status : (readCrcH s).status = s.status := rfl
@[simp] theorem readCrcH_crcL : (readCrcH s).crcL = s.crcL := rfl
@[simp] theorem readCrcH_crcH : (readCrcH s).crcH = answer s := rfl
@[simp] theorem readCrcH_answers : (readCrcH s).answers = s.answers.tail := rfl
@[simp] theorem readCrcH_reads : (readCrcH s).reads = s.reads + 1 := rfl
@[simp] theorem readCrcH_bus : (readCrcH s).bus = s.bus ++ [.read (busAddr s.cfg.regCrcH) (answer s)] := rfl
@[simp] theorem readCrcH_mem : (readCrcH s).mem = s.mem := rfl
@[simp] theorem readCrcH_inbox : (readCrcH s).inbox = s.inbox := rfl
@[simp] theorem readCrcH_responses : (readCrcH s).responses = s.responses := rfl
@[simp] theorem readCrcH_resetIn : (readCrcH s).resetIn = s.resetIn := rfl

/-! ## `drainByte` -/

@[simp] theorem drainByte_cfg : (drainByte s).cfg = s.cfg := rfl
@[simp] theorem drainByte_phase : (drainByte s).phase = s.phase := rfl
@[simp] theorem drainByte_op : (drainByte s).op = s.op := rfl
@[simp] theorem drainByte_cmd : (drainByte s).cmd = s.cmd := rfl
@[simp] theorem drainByte_len : (drainByte s).len = s.len := rfl
@[simp] theorem drainByte_inBuf : (drainByte s).inBuf = s.inBuf := rfl
@[simp] theorem drainByte_idx : (drainByte s).idx = s.idx + 1 := rfl
@[simp] theorem drainByte_ien : (drainByte s).ien = s.ien := rfl
@[simp] theorem drainByte_wait : (drainByte s).wait = s.wait := rfl
@[simp] theorem drainByte_cnt : (drainByte s).cnt = s.cnt := rfl
@[simp] theorem drainByte_t : (drainByte s).t = s.t := rfl
@[simp] theorem drainByte_nirq : (drainByte s).nirq = s.nirq := rfl
@[simp] theorem drainByte_err : (drainByte s).err = s.err := rfl
@[simp] theorem drainByte_lvl : (drainByte s).lvl = s.lvl := rfl
@[simp] theorem drainByte_vb : (drainByte s).vb = s.vb := rfl
@[simp] theorem drainByte_dcnt : (drainByte s).dcnt = s.dcnt := rfl
@[simp] theorem drainByte_bitLen : (drainByte s).bitLen = s.bitLen := rfl
@[simp] theorem drainByte_outBuf : (drainByte s).outBuf = s.outBuf.setIfInBounds s.idx.toNat (answer s) := rfl
@[simp] theorem drainByte_olen : (drainByte s).olen = s.idx.setWidth 5 + 1 := rfl
@[simp] theorem drainByte_status : (drainByte s).status = s.status := rfl
@[simp] theorem drainByte_crcL : (drainByte s).crcL = s.crcL := rfl
@[simp] theorem drainByte_crcH : (drainByte s).crcH = s.crcH := rfl
@[simp] theorem drainByte_answers : (drainByte s).answers = s.answers.tail := rfl
@[simp] theorem drainByte_reads : (drainByte s).reads = s.reads + 1 := rfl
@[simp] theorem drainByte_bus : (drainByte s).bus = s.bus ++ [.read (busAddr s.cfg.regFifoData) (answer s)] := rfl
@[simp] theorem drainByte_mem : (drainByte s).mem = s.mem := rfl
@[simp] theorem drainByte_inbox : (drainByte s).inbox = s.inbox := rfl
@[simp] theorem drainByte_responses : (drainByte s).responses = s.responses := rfl
@[simp] theorem drainByte_resetIn : (drainByte s).resetIn = s.resetIn := rfl

end Sys2Proof.Machine
end

