-- ==== Sys2Proof/Laws/Ops.lean ====
section
/-! SUPPORT. What the shared operations do, said once: the register space (read after write, the canonical form), the
next answer, the request buffer. -/

namespace Sys2Proof.Machine

/-! ## The register space -/

@[simp] theorem Memory.read_nil (a : Nat) : Memory.read [] a = none := rfl

theorem Memory.read_write_same (m : Memory) (a : Nat) (v : Byte) : Memory.read (Memory.write m a v) a = some v := by
  induction m with
  | nil => simp [Memory.write, Memory.read]
  | cons c rest ih =>
    rw [Memory.write]
    split
    · simp [Memory.read]
    · split
      · simp [Memory.read]
      · rename_i hlt hne
        simp [Memory.read, Ne.symm hne, ih]

theorem Memory.read_write_other (m : Memory) {a b : Nat} (v : Byte) (h : b ≠ a) :
    Memory.read (Memory.write m a v) b = Memory.read m b := by
  induction m with
  | nil => simp [Memory.write, Memory.read, Memory.unlisted, Ne.symm h]
  | cons c rest ih =>
    rw [Memory.write]
    split
    · simp [Memory.read, Ne.symm h]
    · split
      · rename_i hlt heq
        simp [Memory.read, ← heq, Ne.symm h]
      · simp [Memory.read, ih]

/-- Read after write, both cases. -/
theorem Memory.read_write (m : Memory) (a b : Nat) (v : Byte) :
    Memory.read (Memory.write m a v) b = if b = a then some v else Memory.read m b := by
  split
  · subst b; exact Memory.read_write_same m a v
  · exact Memory.read_write_other m v ‹_›

theorem Memory.wfFrom_write (m : Memory) {k a : Nat} (v : Byte) (hk : k ≤ a) (ha : a < 64)
    (h : Memory.wfFrom k m = true) : Memory.wfFrom k (Memory.write m a v) = true := by
  induction m generalizing k with
  | nil => simp [Memory.write, Memory.wfFrom, hk, ha]
  | cons c rest ih =>
    simp only [Memory.wfFrom, Bool.and_eq_true, decide_eq_true_eq] at h
    obtain ⟨⟨hkc, hc⟩, hrest⟩ := h
    rw [Memory.write]
    split
    · simp only [Memory.wfFrom, Bool.and_eq_true, decide_eq_true_eq]
      exact ⟨⟨hk, ha⟩, ⟨by omega, hc⟩, hrest⟩
    · split
      · rename_i hlt heq
        subst heq
        simp only [Memory.wfFrom, Bool.and_eq_true, decide_eq_true_eq]
        exact ⟨⟨hk, ha⟩, hrest⟩
      · simp only [Memory.wfFrom, Bool.and_eq_true, decide_eq_true_eq]
        exact ⟨⟨hkc, hc⟩, ih (by omega) hrest⟩

/-- A delivered write keeps the canonical form: the addresses of the bus have six bits. -/
theorem Memory.wf_write {m : Memory} (a : BusAddr) (v : Byte) (h : Memory.wf m = true) :
    Memory.wf (Memory.write m a.toNat v) = true :=
  Memory.wfFrom_write m v (Nat.zero_le _) a.isLt h

/-! ## The next answer -/

@[simp] theorem answer_goto (p : Phase) (s : State) : answer (goto p s) = answer s := rfl
@[simp] theorem answer_busWrite (a v : Byte) (s : State) : answer (busWrite a v s) = answer s := rfl
@[simp] theorem answer_tick (s : State) : answer (tick s) = answer s := rfl
@[simp] theorem answer_acceptExec (c : Byte) (d : List Byte) (s : State) : answer (acceptExec c d s) = answer s := rfl
@[simp] theorem answer_acceptCrc (d : List Byte) (s : State) : answer (acceptCrc d s) = answer s := rfl

theorem answer_cons {s : State} {v : Byte} {rest : List Byte} (h : s.answers = v :: rest) : answer s = v := by
  simp [answer, h]

theorem answer_nil {s : State} (h : s.answers = []) : answer s = Config.freeAnswer s.reads := by
  simp [answer, h]

/-! ## The request buffer -/

/-- Loading `data` from index `k` writes exactly the indexes `k .. k + |data| - 1` that exist. -/
theorem getElem?_loadFrom {n : Nat} (v : Vector Byte n) (k : Nat) (data : List Byte) (j : Nat) :
    (loadFrom v k data)[j]? = if k ≤ j ∧ j < k + data.length ∧ j < n then data[j - k]? else v[j]? := by
  induction data generalizing v k with
  | nil => simp [loadFrom]; omega
  | cons b rest ih =>
    rw [loadFrom, ih, Vector.getElem?_setIfInBounds]
    by_cases hj : j < n
    · by_cases hk : k = j
      · subst hk; simp [hj]
      · by_cases hkj : k + 1 ≤ j
        · have : j - k = (j - (k + 1)) + 1 := by omega
          simp only [this, List.getElem?_cons_succ, List.length_cons]
          simp only [hk, if_false]
          congr 1
          simp; omega
        · have h1 : ¬ (k + 1 ≤ j ∧ j < k + 1 + rest.length ∧ j < n) := by omega
          have h2 : ¬ (k ≤ j ∧ j < k + (b :: rest).length ∧ j < n) := by omega
          rw [if_neg h1, if_neg h2, if_neg hk]
    · simp [hj]; intro; omega

end Sys2Proof.Machine
end

