-- ==== Sys2Proof/Laws/Engine.lean ====
section
/-! SUPPORT. The engine run: the step of each phase by name, what no engine step changes, the ranking function that
falls with every step, and the unfolding equation of `finishRequest` that the ranking gives. -/

namespace Sys2Proof.Machine

variable {s : State}

/-! ## What a phase step never changes -/

@[simp] theorem phaseStep_cfg (s : State) : (phaseStep s).cfg = s.cfg := by
  unfold phaseStep; split <;> first | rfl | (unfold phaseXCmdWr; split <;> rfl)
@[simp] theorem phaseStep_inbox (s : State) : (phaseStep s).inbox = s.inbox := by
  unfold phaseStep; split <;> first | rfl | (unfold phaseXCmdWr; split <;> rfl)
@[simp] theorem phaseStep_resetIn (s : State) : (phaseStep s).resetIn = s.resetIn := by
  unfold phaseStep; split <;> first | rfl | (unfold phaseXCmdWr; split <;> rfl)
@[simp] theorem phaseStep_op (s : State) : (phaseStep s).op = s.op := by
  unfold phaseStep; split <;> first | rfl | (unfold phaseXCmdWr; split <;> rfl)
@[simp] theorem phaseStep_cmd (s : State) : (phaseStep s).cmd = s.cmd := by
  unfold phaseStep; split <;> first | rfl | (unfold phaseXCmdWr; split <;> rfl)
@[simp] theorem phaseStep_len (s : State) : (phaseStep s).len = s.len := by
  unfold phaseStep; split <;> first | rfl | (unfold phaseXCmdWr; split <;> rfl)
@[simp] theorem phaseStep_inBuf (s : State) : (phaseStep s).inBuf = s.inBuf := by
  unfold phaseStep; split <;> first | rfl | (unfold phaseXCmdWr; split <;> rfl)
@[simp] theorem phaseStep_ien (s : State) : (phaseStep s).ien = s.ien := by
  unfold phaseStep; split <;> first | rfl | (unfold phaseXCmdWr; split <;> rfl)
@[simp] theorem phaseStep_wait (s : State) : (phaseStep s).wait = s.wait := by
  unfold phaseStep; split <;> first | rfl | (unfold phaseXCmdWr; split <;> rfl)

@[simp] theorem engineStep_cfg (s : State) : (engineStep s).cfg = s.cfg := by
  unfold engineStep; split <;> simp
@[simp] theorem engineStep_inbox (s : State) : (engineStep s).inbox = s.inbox := by
  unfold engineStep; split <;> simp

/-- Without a reset scheduled an engine step is the step of the phase. -/
theorem engineStep_of_none (h : s.resetIn = none) : engineStep s = phaseStep s := by
  have ht : tick s = s := by cases s; simp_all [tick]
  simp [engineStep, resetNow, h, ht]

/-! ## The ranking function -/

/-- More than the passes a byte loop can still make from this index (an index of 255 wraps to 0). -/
def idxRank (i : Byte) : Nat := if i = 255 then 257 else 256 - i.toNat

/-- More than the polls a poll loop can still make from this counter (a counter of 0 wraps to 65535). -/
def cntRank (c : BitVec 16) : Nat := if c = 0 then 65536 else c.toNat

/-- An upper bound of the engine steps left until IDLE, from the phase and the two loop registers. -/
def rankOf (p : Phase) (idx : Byte) (cnt : BitVec 16) : Nat :=
  match p with
  | .idle => 0
  | .xDone => 1
  | .xDrain => 1 + idxRank idx
  | .xLastRd => 259
  | .xLevelRd => 260
  | .xErrRd => 261
  | .xStopWr => 262
  | .xStopRd => 263
  | .xPoll => 263 + cntRank cnt
  | .xStartWr => 65800
  | .xStartRd => 65801
  | .xCmdWr => 65802
  | .xLoad => 65802 + idxRank idx
  | .xIdleWr => 66060
  | .xFlushWr => 66061
  | .xFlushRd => 66062
  | .xIrqWr => 66063
  | .xIrqRd => 66064
  | .xIenWr => 66065
  | .cDone => 1
  | .cResH => 2
  | .cResL => 3
  | .cPoll => 3 + cntRank cnt
  | .cCmdWr => 65540
  | .cLoad => 65540 + idxRank idx
  | .cFlushWr => 65798
  | .cFlushRd => 65799
  | .cClrWr => 65800
  | .cClrRd => 65801

/-- The rank of a state. -/
def rank (s : State) : Nat := rankOf s.phase s.idx s.cnt

theorem byte_eq_255 (i : Byte) : i = 255 ↔ i.toNat = 255 :=
  ⟨fun h => by rw [h]; rfl, fun h => BitVec.eq_of_toNat_eq (by rw [h]; rfl)⟩

theorem cnt_eq_zero (c : BitVec 16) : c = 0 ↔ c.toNat = 0 :=
  ⟨fun h => by rw [h]; rfl, fun h => BitVec.eq_of_toNat_eq (by rw [h]; rfl)⟩

theorem idxRank_pos (i : Byte) : 1 ≤ idxRank i := by
  have := i.isLt
  unfold idxRank; split <;> omega

theorem idxRank_le (i : Byte) : idxRank i ≤ 257 := by
  unfold idxRank; split <;> omega

/-- A byte loop that goes on has a smaller rank: it goes on only below a bound of at most 255. -/
theorem idxRank_succ {i : Byte} {b : Nat} (hb : b < 256) (h : (i + 1).toNat < b) : idxRank (i + 1) < idxRank i := by
  have hi := i.isLt
  have h1 : (i + 1).toNat = (i.toNat + 1) % 256 := by simp [BitVec.toNat_add]
  unfold idxRank
  simp only [byte_eq_255]
  split <;> split <;> omega

theorem cntRank_pos (c : BitVec 16) : 1 ≤ cntRank c := by
  unfold cntRank; simp only [cnt_eq_zero]; split <;> omega

theorem cntRank_le (c : BitVec 16) : cntRank c ≤ 65536 := by
  have := c.isLt
  unfold cntRank; split <;> omega

/-- A poll loop that goes on has a smaller rank: it goes on only with a counter other than 0. -/
theorem cntRank_pred {c : BitVec 16} (h : c - 1 ≠ 0) : cntRank (c - 1) < cntRank c := by
  have hc := c.isLt
  have h1 : (c - 1).toNat = (65535 + c.toNat) % 65536 := by simp [BitVec.toNat_sub]
  unfold cntRank
  rw [if_neg h]
  simp only [cnt_eq_zero] at h ⊢
  split <;> omega

theorem rankOf_ite (c : Prop) [Decidable c] (p q : Phase) (i : Byte) (k : BitVec 16) :
    rankOf (if c then p else q) i k = if c then rankOf p i k else rankOf q i k := by split <;> rfl

/-- A counter that reaches 0 ends both poll loops. -/
theorem exits_of_zero {a : Byte} (h : s.cnt - 1 = 0) :
    pollExit (pollOnce a s) = true ∧ crcPollExit (pollOnce a s) = true := by
  have : exhausted (pollOnce a s) = true := decide_eq_true h
  simp [pollExit, crcPollExit, this]

/-- Every phase step outside IDLE lowers the rank. -/
theorem rank_phaseStep (h : s.phase ≠ .idle) : rank (phaseStep s) < rank s := by
  have hp := cntRank_pos s.cnt
  have hi := idxRank_pos s.idx
  have hi1 := idxRank_le (s.idx + 1)
  have hb := cntRank_le s.cfg.pollBudget
  have hc := cntRank_le s.cfg.crcBudget
  have hl := idxRank_le s.idx
  have hz : idxRank 0#8 = 256 := by decide
  unfold phaseStep
  split <;> rename_i hph <;> simp only [rank, hph]
  case h_1 => exact absurd hph h
  case h_8 =>
    simp only [phaseXLoad, goto_phase, goto_idx, goto_cnt, loadByte_idx, loadByte_cnt]
    by_cases hm : moreToLoad (loadByte s)
    · have := idxRank_succ s.len.isLt (of_decide_eq_true hm)
      rw [if_pos hm]; simpa [rankOf] using this
    · rw [if_neg hm]; simp [rankOf] at *; omega
  case h_9 =>
    simp only [phaseXCmdWr]
    split <;> simp [rankOf]
    omega
  case h_12 =>
    simp only [phaseXPoll, goto_phase, goto_idx, goto_cnt, pollOnce_idx, pollOnce_cnt]
    by_cases hx : pollExit (pollOnce s.cfg.regIrq s)
    · rw [if_pos hx]; simp [rankOf] at *; omega
    · have := cntRank_pred (c := s.cnt) (fun h0 => hx (exits_of_zero h0).1)
      rw [if_neg hx]; simpa [rankOf] using this
  case h_18 =>
    simp only [phaseXDrain, goto_phase, goto_idx, goto_cnt, drainByte_idx, drainByte_cnt]
    by_cases hm : moreToDrain (drainByte s)
    · have hd := s.dcnt.isLt
      have := idxRank_succ (by omega) (of_decide_eq_true hm)
      rw [if_pos hm]; simpa [rankOf] using this
    · rw [if_neg hm]; simp [rankOf] at *; omega
  case h_24 =>
    simp only [phaseCLoad, goto_phase, goto_idx, goto_cnt, loadByte_idx, loadByte_cnt]
    by_cases hm : moreToLoad (loadByte s)
    · have := idxRank_succ s.len.isLt (of_decide_eq_true hm)
      rw [if_pos hm]; simpa [rankOf] using this
    · rw [if_neg hm]; simp [rankOf] at *; omega
  case h_26 =>
    simp only [phaseCPoll, goto_phase, goto_idx, goto_cnt, pollOnce_idx, pollOnce_cnt]
    by_cases hx : crcPollExit (pollOnce s.cfg.regDivIrq s)
    · rw [if_pos hx]; simp [rankOf] at *; omega
    · have := cntRank_pred (c := s.cnt) (fun h0 => hx (exits_of_zero h0).2)
      rw [if_neg hx]; simpa [rankOf] using this
  case h_15 =>
    simp only [phaseXErrRd, goto_phase]
    by_cases hx : chipError (readErr s)
    · rw [if_pos hx]; simp [rankOf]
    · rw [if_neg hx]; split <;> simp [rankOf]
  case h_7 => simp only [phaseXIdleWr, goto_phase]; rw [rankOf_ite]; split <;> simp [rankOf]; omega
  case h_14 => simp only [phaseXStopWr, goto_phase]; rw [rankOf_ite]; split <;> simp [rankOf]
  case h_23 => simp only [phaseCFlushWr, goto_phase]; rw [rankOf_ite]; split <;> simp [rankOf]; omega
  all_goals
    simp [rankOf, phaseXIenWr, phaseXIrqRd, phaseXIrqWr, phaseXFlushRd, phaseXFlushWr, phaseXStartRd, phaseXStartWr,
      phaseXStopRd, phaseXLevelRd, phaseXLastRd, phaseXDone, phaseCClrRd, phaseCClrWr, phaseCFlushRd, phaseCCmdWr,
      phaseCResL, phaseCResH, phaseCDone, hz]
  all_goals omega

@[simp] theorem rank_tick (s : State) : rank (tick s) = rank s := rfl
@[simp] theorem rank_resetEngine (s : State) : rank (resetEngine s) = 0 := rfl

theorem rank_pos (h : s.phase ≠ .idle) : 0 < rank s :=
  Nat.lt_of_le_of_lt (Nat.zero_le _) (rank_phaseStep h)

/-- Every engine step outside IDLE lowers the rank, the reset included. -/
theorem rank_engineStep (h : s.phase ≠ .idle) : rank (engineStep s) < rank s := by
  unfold engineStep
  split
  · simpa using rank_pos h
  · have := rank_phaseStep (s := tick s) (by simpa using h)
    simpa using this

/-- Every rank is below the number of steps `finishRequest` grants. -/
theorem rank_le (s : State) : rank s ≤ maxEngineSteps := by
  have hi := idxRank_le s.idx
  have hc := cntRank_le s.cnt
  unfold rank rankOf maxEngineSteps
  split <;> omega

/-! ## The run -/

theorem runEngine_idle (n : Nat) (h : s.phase = .idle) : runEngine n s = s := by
  cases n <;> simp [runEngine, h]

theorem runEngine_busy (n : Nat) (h : s.phase ≠ .idle) : runEngine (n + 1) s = runEngine n (engineStep s) := by
  simp [runEngine, h]

/-- With at least `rank` steps the engine reaches IDLE. -/
theorem runEngine_phase {n : Nat} (h : rank s ≤ n) : (runEngine n s).phase = .idle := by
  induction n generalizing s with
  | zero =>
    by_cases hp : s.phase = .idle
    · simpa [runEngine] using hp
    · have := rank_pos hp; omega
  | succ n ih =>
    by_cases hp : s.phase = .idle
    · rw [runEngine_idle _ hp]; exact hp
    · rw [runEngine_busy _ hp]
      exact ih (by have := rank_engineStep hp; omega)

/-- Steps beyond the rank change nothing. -/
theorem runEngine_fuel {n m : Nat} (hn : rank s ≤ n) (hm : rank s ≤ m) : runEngine n s = runEngine m s := by
  induction n generalizing s m with
  | zero =>
    have hp : s.phase = .idle := by
      by_contra hp; have := rank_pos hp; omega
    rw [runEngine_idle _ hp, runEngine_idle _ hp]
  | succ n ih =>
    by_cases hp : s.phase = .idle
    · rw [runEngine_idle _ hp, runEngine_idle _ hp]
    · have hlt := rank_engineStep hp
      obtain ⟨m, rfl⟩ : ∃ k, m = k + 1 := ⟨m - 1, by omega⟩
      rw [runEngine_busy _ hp, runEngine_busy _ hp]
      exact ih (by omega) (by omega)

/-- In IDLE there is nothing to finish. -/
theorem finishRequest_idle (h : s.phase = .idle) : finishRequest s = s := runEngine_idle _ h

/-- The unfolding equation: outside IDLE one engine step, then the rest. -/
theorem finishRequest_busy (h : s.phase ≠ .idle) : finishRequest s = finishRequest (engineStep s) := by
  have hlt := rank_engineStep h
  have hle := rank_le s
  have hm : maxEngineSteps = (maxEngineSteps - 1) + 1 := by decide
  unfold finishRequest
  rw [hm, runEngine_busy _ h]
  exact runEngine_fuel (by omega) (by omega)

/-- The same with no reset scheduled: one phase step, then the rest. -/
theorem finishRequest_step (h : s.phase ≠ .idle) (hr : s.resetIn = none) :
    finishRequest s = finishRequest (phaseStep s) := by
  rw [finishRequest_busy h, engineStep_of_none hr]

/-- The engine always comes back to IDLE. -/
theorem finishRequest_phase (s : State) : (finishRequest s).phase = .idle := runEngine_phase (rank_le s)

/-- Induction along a run of the engine: what holds of every state in IDLE and is inherited backwards over an engine
step holds of every state. -/
theorem run_induction {P : State → Prop} (idle : ∀ s, s.phase = .idle → P s)
    (busy : ∀ s, s.phase ≠ .idle → P (engineStep s) → P s) (s : State) : P s := by
  suffices h : ∀ n, ∀ s, rank s ≤ n → P s from h _ s (Nat.le_refl _)
  intro n
  induction n with
  | zero =>
    intro s hs
    by_cases hp : s.phase = .idle
    · exact idle s hp
    · have := rank_pos hp; omega
  | succ n ih =>
    intro s hs
    by_cases hp : s.phase = .idle
    · exact idle s hp
    · exact busy s hp (ih _ (by have := rank_engineStep hp; omega))

/-- An invariant of the engine step, packaged once: if every engine step outside IDLE keeps `P`, so does finishing. -/
theorem finishRequest_keeps {P : State → Prop} (step : ∀ s, s.phase ≠ .idle → P s → P (engineStep s))
    {s : State} (h : P s) : P (finishRequest s) := by
  have key : ∀ s, P s → P (finishRequest s) := by
    refine run_induction (P := fun s => P s → P (finishRequest s)) ?_ ?_
    · intro s hp h; rwa [finishRequest_idle hp]
    · intro s hp ih h
      rw [finishRequest_busy hp]
      exact ih (step s hp h)
  exact key s h

@[simp] theorem finishRequest_cfg (s : State) : (finishRequest s).cfg = s.cfg :=
  finishRequest_keeps (P := fun t => t.cfg = s.cfg) (fun t _ h => by simpa using h) rfl

@[simp] theorem finishRequest_inbox (s : State) : (finishRequest s).inbox = s.inbox :=
  finishRequest_keeps (P := fun t => t.inbox = s.inbox) (fun t _ h => by simpa using h) rfl

/-- Without a reset scheduled the request starts in the state it is presented in, when the engine is in IDLE. -/
theorem whenIdle_of_idle (h : s.phase = .idle) (hr : s.resetIn = none) : whenIdle s = s := by
  have ht : tick s = s := by cases s; simp_all [tick]
  simp [whenIdle, finishRequest_idle h, resetNow, hr, ht]

end Sys2Proof.Machine
end

