-- ==== Sys2Proof/Laws/Flags.lean ====
section
/-! SUPPORT. The branch conditions as propositions, one lemma per condition, and the bounds of the clamp. -/

namespace Sys2Proof.Machine

variable {s : State}

theorem exhausted_iff : exhausted s = true ↔ s.cnt = 0 := decide_eq_true_iff
theorem timerSeen_iff : timerSeen s = true ↔ s.nirq &&& s.cfg.irqTimer ≠ 0 := decide_eq_true_iff
theorem waitSeen_iff : waitSeen s = true ↔ s.nirq &&& s.wait ≠ 0 := decide_eq_true_iff
theorem crcDoneSeen_iff : crcDoneSeen s = true ↔ s.nirq &&& s.cfg.crcDone ≠ 0 := decide_eq_true_iff
theorem chipError_iff : chipError s = true ↔ s.err &&& s.cfg.errMask ≠ 0 := decide_eq_true_iff
theorem isTransceive_iff : isTransceive s = true ↔ s.cmd = s.cfg.cmdTransceive := decide_eq_true_iff
theorem noTagSeen_iff : noTagSeen s = true ↔ s.nirq &&& s.ien &&& s.cfg.irqTimer ≠ 0 := decide_eq_true_iff
theorem moreToLoad_iff : moreToLoad s = true ↔ s.idx.toNat < s.len.toNat := decide_eq_true_iff
theorem moreToDrain_iff : moreToDrain s = true ↔ s.idx.toNat < s.dcnt.toNat := decide_eq_true_iff
theorem resetNow_iff : resetNow s = true ↔ s.resetIn = some 0 := decide_eq_true_iff

theorem pollExit_iff : pollExit s = true ↔
    s.cnt = 0 ∨ s.nirq &&& s.cfg.irqTimer ≠ 0 ∨ s.nirq &&& s.wait ≠ 0 := by
  rw [pollExit, Bool.or_eq_true, Bool.or_eq_true, exhausted_iff, timerSeen_iff, waitSeen_iff, or_assoc]

theorem crcPollExit_iff : crcPollExit s = true ↔ s.cnt = 0 ∨ s.nirq &&& s.cfg.crcDone ≠ 0 := by
  rw [crcPollExit, Bool.or_eq_true, exhausted_iff, crcDoneSeen_iff]

/-- The clamp stays between 1 and a `MAX_LEN` of at least 1. -/
theorem drainCount_bounds {m : BitVec 5} (lvl : Byte) (hm : 1 ≤ m.toNat) :
    1 ≤ (drainCount m lvl).toNat ∧ (drainCount m lvl).toNat ≤ m.toNat := by
  have hml := m.isLt
  unfold drainCount
  split
  · exact ⟨by decide, by simpa using hm⟩
  · rename_i h0
    have : lvl.toNat ≠ 0 := fun h => h0 (BitVec.eq_of_toNat_eq h)
    split
    · exact ⟨hm, Nat.le_refl _⟩
    · have : (lvl.setWidth 5).toNat = lvl.toNat := by rw [BitVec.toNat_setWidth]; omega
      omega

/-- What a legal CFG gives the engine (R9). -/
theorem legal_budgets {c : Cfg} (h : c.legal = true) : c.pollBudget ≠ 0 ∧ c.crcBudget ≠ 0 := by
  simp only [Cfg.legal, List.all_cons, List.all_nil, id, Bool.and_eq_true, decide_eq_true_eq] at h; tauto

theorem legal_maxLen {c : Cfg} (h : c.legal = true) : 1 ≤ c.maxLen.toNat ∧ c.maxLen.toNat ≤ 16 := by
  simp only [Cfg.legal, List.all_cons, List.all_nil, id, Bool.and_eq_true, decide_eq_true_eq] at h; tauto

theorem legal_status {c : Cfg} (h : c.legal = true) :
    c.stOk ≠ c.stNoTag ∧ c.stOk ≠ c.stErr ∧ c.stNoTag ≠ c.stErr := by
  simp only [Cfg.legal, List.all_cons, List.all_nil, id, Bool.and_eq_true, decide_eq_true_eq] at h; tauto

theorem legal_commands {c : Cfg} (h : c.legal = true) : c.cmdAuthent ≠ c.cmdTransceive := by
  simp only [Cfg.legal, List.all_cons, List.all_nil, id, Bool.and_eq_true, decide_eq_true_eq] at h; tauto

theorem legal_registers {c : Cfg} (h : c.legal = true) {a : Byte} (ha : a ∈ c.registers) :
    a.toNat ≤ 63 ∧ c.reserved.contains (a.extractLsb' 0 6) = false := by
  have : c.registers.all (fun a => decide (a.toNat ≤ 63) && !c.reserved.contains (a.extractLsb' 0 6)) = true := by
    simp only [Cfg.legal, List.all_cons, List.all_nil, id, Bool.and_eq_true] at h; tauto
  have := List.all_eq_true.1 this a ha
  simp only [Bool.and_eq_true, decide_eq_true_eq, Bool.not_eq_true'] at this
  exact this

end Sys2Proof.Machine
end

