-- ==== Sys2Proof/Laws/Loops.lean ====
section
/-! SUPPORT. The phase graph without its loops: PHASE commutes with every other write, and the run of a looping phase
(X_LOAD, C_LOAD, X_POLL, C_POLL, X_DRAIN) is the loop of the pseudocode followed by the loop's exit. -/

namespace Sys2Proof.Machine

/-! ## PHASE is written last -/

@[simp] theorem goto_goto (p q : Phase) (s : State) : goto p (goto q s) = goto p s := rfl
@[simp] theorem busWrite_goto (a v : Byte) (p : Phase) (s : State) :
    busWrite a v (goto p s) = goto p (busWrite a v s) := rfl
@[simp] theorem readToT_goto (a : Byte) (p : Phase) (s : State) : readToT a (goto p s) = goto p (readToT a s) := rfl
@[simp] theorem loadByte_goto (p : Phase) (s : State) : loadByte (goto p s) = goto p (loadByte s) := rfl
@[simp] theorem pollOnce_goto (a : Byte) (p : Phase) (s : State) : pollOnce a (goto p s) = goto p (pollOnce a s) := rfl
@[simp] theorem drainByte_goto (p : Phase) (s : State) : drainByte (goto p s) = goto p (drainByte s) := rfl
@[simp] theorem loadCnt_goto (b : BitVec 16) (p : Phase) (s : State) :
    loadCnt b (goto p s) = goto p (loadCnt b s) := rfl
@[simp] theorem readErr_goto (p : Phase) (s : State) : readErr (goto p s) = goto p (readErr s) := rfl
@[simp] theorem readLevel_goto (p : Phase) (s : State) : readLevel (goto p s) = goto p (readLevel s) := rfl
@[simp] theorem readLast_goto (p : Phase) (s : State) : readLast (goto p s) = goto p (readLast s) := rfl
@[simp] theorem readCrcL_goto (p : Phase) (s : State) : readCrcL (goto p s) = goto p (readCrcL s) := rfl
@[simp] theorem readCrcH_goto (p : Phase) (s : State) : readCrcH (goto p s) = goto p (readCrcH s) := rfl
@[simp] theorem setStatus_goto (st : BitVec 2) (p : Phase) (s : State) :
    setStatus st (goto p s) = goto p (setStatus st s) := rfl
@[simp] theorem respond_goto (r : Response) (p : Phase) (s : State) : respond r (goto p s) = respond r s := rfl
@[simp] theorem moreToLoad_goto (p : Phase) (s : State) : moreToLoad (goto p s) = moreToLoad s := rfl
@[simp] theorem moreToDrain_goto (p : Phase) (s : State) : moreToDrain (goto p s) = moreToDrain s := rfl
@[simp] theorem pollExit_goto (p : Phase) (s : State) : pollExit (goto p s) = pollExit s := rfl
@[simp] theorem crcPollExit_goto (p : Phase) (s : State) : crcPollExit (goto p s) = crcPollExit s := rfl
@[simp] theorem exhausted_goto (p : Phase) (s : State) : exhausted (goto p s) = exhausted s := rfl
@[simp] theorem chipError_goto (p : Phase) (s : State) : chipError (goto p s) = chipError s := rfl
@[simp] theorem noTagSeen_goto (p : Phase) (s : State) : noTagSeen (goto p s) = noTagSeen s := rfl
@[simp] theorem isTransceive_goto (p : Phase) (s : State) : isTransceive (goto p s) = isTransceive s := rfl
@[simp] theorem statusAfterErr_goto (p : Phase) (s : State) : statusAfterErr (goto p s) = statusAfterErr s := rfl
@[simp] theorem payload_goto (p : Phase) (s : State) : payload (goto p s) = payload s := rfl


/-! ## One lemma per phase: the step of a state in that phase -/

theorem phaseStep_xIenWr (u : State) : phaseStep (goto .xIenWr u) =
    goto .xIrqRd (busWrite u.cfg.regIen (u.ien ||| u.cfg.ienOr) u) := rfl
theorem phaseStep_xIrqRd (u : State) : phaseStep (goto .xIrqRd u) =
    goto .xIrqWr (readToT u.cfg.regIrq u) := rfl
theorem phaseStep_xIrqWr (u : State) : phaseStep (goto .xIrqWr u) =
    goto .xFlushRd (busWrite u.cfg.regIrq (clearBits u.t u.cfg.irqClear) u) := rfl
theorem phaseStep_xFlushRd (u : State) : phaseStep (goto .xFlushRd u) =
    goto .xFlushWr (readToT u.cfg.regFifoLevel u) := rfl
theorem phaseStep_xFlushWr (u : State) : phaseStep (goto .xFlushWr u) =
    goto .xIdleWr (busWrite u.cfg.regFifoLevel (setBits u.t u.cfg.fifoFlush) u) := rfl
theorem phaseStep_xIdleWr (u : State) : phaseStep (goto .xIdleWr u) =
    goto (if u.len ≠ 0 then .xLoad else .xCmdWr) (busWrite u.cfg.regCommand u.cfg.cmdIdle u) := rfl
theorem phaseStep_xLoad (u : State) : phaseStep (goto .xLoad u) =
    goto (if moreToLoad (loadByte u) then .xLoad else .xCmdWr) (loadByte u) := rfl
theorem phaseStep_xStartRd (u : State) : phaseStep (goto .xStartRd u) =
    goto .xStartWr (readToT u.cfg.regBitFraming u) := rfl
theorem phaseStep_xStartWr (u : State) : phaseStep (goto .xStartWr u) =
    goto .xPoll (loadCnt u.cfg.pollBudget (busWrite u.cfg.regBitFraming (setBits u.t u.cfg.startSend) u)) := rfl
theorem phaseStep_xPoll (u : State) : phaseStep (goto .xPoll u) =
    goto (if pollExit (pollOnce u.cfg.regIrq u) then .xStopRd else .xPoll) (pollOnce u.cfg.regIrq u) := rfl
theorem phaseStep_xStopRd (u : State) : phaseStep (goto .xStopRd u) =
    goto .xStopWr (readToT u.cfg.regBitFraming u) := rfl
theorem phaseStep_xStopWr (u : State) : phaseStep (goto .xStopWr u) =
    goto (if exhausted u then .xDone else .xErrRd)
      (busWrite u.cfg.regBitFraming (clearBits u.t u.cfg.startSend) u) := rfl
theorem phaseStep_xErrRd (u : State) : phaseStep (goto .xErrRd u) =
    goto (if chipError (readErr u) then .xDone else if isTransceive (readErr u) then .xLevelRd else .xDone)
      (setStatus (statusAfterErr (readErr u)) (readErr u)) := rfl
theorem phaseStep_xLevelRd (u : State) : phaseStep (goto .xLevelRd u) =
    goto .xLastRd (readLevel u) := rfl
theorem phaseStep_xLastRd (u : State) : phaseStep (goto .xLastRd u) =
    goto .xDrain (readLast u) := rfl
theorem phaseStep_xDrain (u : State) : phaseStep (goto .xDrain u) =
    goto (if moreToDrain (drainByte u) then .xDrain else .xDone) (drainByte u) := rfl
theorem phaseStep_xDone (u : State) : phaseStep (goto .xDone u) =
    respond (.exec u.status (payload u) u.vb u.bitLen) u := rfl
theorem phaseStep_cClrRd (u : State) : phaseStep (goto .cClrRd u) =
    goto .cClrWr (readToT u.cfg.regDivIrq u) := rfl
theorem phaseStep_cClrWr (u : State) : phaseStep (goto .cClrWr u) =
    goto .cFlushRd (busWrite u.cfg.regDivIrq (clearBits u.t u.cfg.crcDone) u) := rfl
theorem phaseStep_cFlushRd (u : State) : phaseStep (goto .cFlushRd u) =
    goto .cFlushWr (readToT u.cfg.regFifoLevel u) := rfl
theorem phaseStep_cFlushWr (u : State) : phaseStep (goto .cFlushWr u) =
    goto (if u.len ≠ 0 then .cLoad else .cCmdWr)
      (busWrite u.cfg.regFifoLevel (setBits u.t u.cfg.fifoFlush) u) := rfl
theorem phaseStep_cLoad (u : State) : phaseStep (goto .cLoad u) =
    goto (if moreToLoad (loadByte u) then .cLoad else .cCmdWr) (loadByte u) := rfl
theorem phaseStep_cCmdWr (u : State) : phaseStep (goto .cCmdWr u) =
    goto .cPoll (loadCnt u.cfg.crcBudget (busWrite u.cfg.regCommand u.cfg.cmdCalcCrc u)) := rfl
theorem phaseStep_cPoll (u : State) : phaseStep (goto .cPoll u) =
    goto (if crcPollExit (pollOnce u.cfg.regDivIrq u) then .cResL else .cPoll) (pollOnce u.cfg.regDivIrq u) := rfl
theorem phaseStep_cResL (u : State) : phaseStep (goto .cResL u) =
    goto .cResH (readCrcL u) := rfl
theorem phaseStep_cResH (u : State) : phaseStep (goto .cResH u) =
    goto .cDone (readCrcH u) := rfl
theorem phaseStep_cDone (u : State) : phaseStep (goto .cDone u) =
    respond (.crc u.crcL u.crcH) u := rfl

theorem phaseStep_xCmdWr_transceive (u : State) (h : isTransceive u = true) :
    phaseStep (goto .xCmdWr u) = goto .xStartRd (busWrite u.cfg.regCommand u.cmd u) := by
  have h' : isTransceive (goto .xCmdWr u) = true := h
  simp only [phaseStep, goto_phase, phaseXCmdWr, h', if_true]
  rfl

theorem phaseStep_xCmdWr_other (u : State) (h : isTransceive u = false) :
    phaseStep (goto .xCmdWr u) = goto .xPoll (loadCnt u.cfg.pollBudget (busWrite u.cfg.regCommand u.cmd u)) := by
  have h' : isTransceive (goto .xCmdWr u) = false := h
  simp only [phaseStep, goto_phase, phaseXCmdWr, h']
  rfl

variable {s : State}

/-- One phase step of a run that is in phase `p`. -/
theorem finishRequest_goto {p : Phase} (hp : p ≠ .idle) (hr : s.resetIn = none) :
    finishRequest (goto p s) = finishRequest (phaseStep (goto p s)) :=
  finishRequest_step (by simpa using hp) (by simpa using hr)

/-! ## The load loop (R110, R138) -/

theorem idx_succ {b : Nat} (h : s.idx.toNat < b) (hb : b < 256) : (s.idx + 1).toNat = s.idx.toNat + 1 := by
  simp [BitVec.toNat_add]; omega

theorem loadLoop_done {n : Nat} (h : s.len.toNat ≤ s.idx.toNat) : loadLoop n s = s := by
  cases n with
  | zero => rfl
  | succ n => rw [loadLoop, if_neg]; simp [moreToLoad]; omega

theorem loadLoop_more {n : Nat} (h : s.idx.toNat < s.len.toNat) : loadLoop (n + 1) s = loadLoop n (loadByte s) := by
  rw [loadLoop, if_pos]; simpa [moreToLoad] using h

/-- Both load phases: `p` the loading phase, `q` its exit. -/
theorem finishRequest_loads {p q : Phase} (hp : p ≠ .idle)
    (step : ∀ u, phaseStep (goto p u) = goto (if moreToLoad (loadByte u) then p else q) (loadByte u)) (n : Nat)
    (hr : s.resetIn = none) (hn : s.len.toNat = s.idx.toNat + n + 1) :
    finishRequest (goto p s) = finishRequest (goto q (loadLoop (n + 1) s)) := by
  have hl := s.len.isLt
  induction n generalizing s with
  | zero =>
    have hi : (loadByte s).idx.toNat = s.idx.toNat + 1 := idx_succ (b := s.len.toNat) (by omega) hl
    rw [finishRequest_goto hp hr, step, if_neg (by simp only [moreToLoad, hi, loadByte_len, decide_eq_true_eq]; omega), loadLoop_more (by omega)]
    rfl
  | succ n ih =>
    have hi : (loadByte s).idx.toNat = s.idx.toNat + 1 := idx_succ (b := s.len.toNat) (by omega) hl
    rw [finishRequest_goto hp hr, step, if_pos (by simp only [moreToLoad, hi, loadByte_len, decide_eq_true_eq]; omega),
      ih (by simpa using hr) (by simp only [hi, loadByte_len]; omega) (by simpa using hl), loadLoop_more (n := n + 1) (by omega)]

/-- X_IDLE_WR and C_FLUSH_WR choose between loading and skipping the load: either way the load loop has run. -/
theorem finishRequest_load {p q : Phase} (hp : p ≠ .idle)
    (step : ∀ u, phaseStep (goto p u) = goto (if moreToLoad (loadByte u) then p else q) (loadByte u))
    (hr : s.resetIn = none) (hi : s.idx = 0) :
    finishRequest (goto (if s.len ≠ 0 then p else q) s) = finishRequest (goto q (loadLoop s.len.toNat s)) := by
  by_cases h0 : s.len = 0
  · rw [if_neg (by simp [h0]), loadLoop_done]; simp [h0]
  · have hl : s.len.toNat ≠ 0 := fun h => h0 (BitVec.eq_of_toNat_eq h)
    rw [if_pos h0]
    obtain ⟨n, hn⟩ : ∃ n, s.len.toNat = n + 1 := ⟨s.len.toNat - 1, by omega⟩
    rw [finishRequest_loads hp step n hr (by simp [hi]; omega), hn]

/-! ## The poll loops (R114, R140) -/

theorem cnt_pred (h : s.cnt ≠ 0) : (s.cnt - 1).toNat + 1 = s.cnt.toNat := by
  have hc := s.cnt.isLt
  have hne : s.cnt.toNat ≠ 0 := fun h0 => h ((cnt_eq_zero _).2 h0)
  have h1 : (s.cnt - 1).toNat = (65535 + s.cnt.toNat) % 65536 := by simp [BitVec.toNat_sub]
  omega

/-- A poll that does not end the loop leaves a counter other than 0. -/
theorem cnt_of_not_exit {a : Byte}
    (h : ¬ (pollExit (pollOnce a s) = true) ∨ ¬ (crcPollExit (pollOnce a s) = true)) : s.cnt - 1 ≠ 0 := by
  intro h0
  have := exits_of_zero (a := a) h0
  simp_all

theorem finishRequest_poll (hr : s.resetIn = none) (h : s.cnt ≠ 0) :
    finishRequest (goto .xPoll s) = finishRequest (goto .xStopRd (pollLoop s.cnt.toNat s)) := by
  obtain ⟨n, hn⟩ : ∃ n, s.cnt.toNat = n := ⟨_, rfl⟩
  induction n generalizing s with
  | zero => exact absurd ((cnt_eq_zero _).2 hn) h
  | succ n ih =>
    have hp := cnt_pred h
    rw [finishRequest_goto (by decide) hr, hn, pollLoop, phaseStep_xPoll]
    by_cases hx : pollExit (pollOnce s.cfg.regIrq s)
    · rw [if_pos hx, if_pos hx]
    · have hc := cnt_of_not_exit (.inl hx)
      rw [if_neg hx, if_neg hx, ih (by simpa using hr) (by simpa using hc) (by simp only [pollOnce_cnt]; omega)]
      simp only [pollOnce_cnt]
      rw [show (s.cnt - 1).toNat = n by omega]

theorem finishRequest_crcPoll (hr : s.resetIn = none) (h : s.cnt ≠ 0) :
    finishRequest (goto .cPoll s) = finishRequest (goto .cResL (crcPollLoop s.cnt.toNat s)) := by
  obtain ⟨n, hn⟩ : ∃ n, s.cnt.toNat = n := ⟨_, rfl⟩
  induction n generalizing s with
  | zero => exact absurd ((cnt_eq_zero _).2 hn) h
  | succ n ih =>
    have hp := cnt_pred h
    rw [finishRequest_goto (by decide) hr, hn, crcPollLoop, phaseStep_cPoll]
    by_cases hx : crcPollExit (pollOnce s.cfg.regDivIrq s)
    · rw [if_pos hx, if_pos hx]
    · have hc := cnt_of_not_exit (.inr hx)
      rw [if_neg hx, if_neg hx, ih (by simpa using hr) (by simpa using hc) (by simp only [pollOnce_cnt]; omega)]
      simp only [pollOnce_cnt]
      rw [show (s.cnt - 1).toNat = n by omega]

/-! ## The drain loop (R124) -/

theorem drainLoop_more {n : Nat} (h : s.idx.toNat < s.dcnt.toNat) :
    drainLoop (n + 1) s = drainLoop n (drainByte s) := by
  rw [drainLoop, if_pos]; simpa [moreToDrain] using h

theorem finishRequest_drain (n : Nat) (hr : s.resetIn = none) (hn : s.dcnt.toNat = s.idx.toNat + n + 1) :
    finishRequest (goto .xDrain s) = finishRequest (goto .xDone (drainLoop (n + 1) s)) := by
  have hl := s.dcnt.isLt
  induction n generalizing s with
  | zero =>
    have hi : (drainByte s).idx.toNat = s.idx.toNat + 1 := idx_succ (b := s.dcnt.toNat) (by omega) (by omega)
    rw [finishRequest_goto (by decide) hr, phaseStep_xDrain]
    rw [if_neg (by simp only [moreToDrain, hi, drainByte_dcnt, decide_eq_true_eq]; omega), drainLoop_more (by omega)]
    rfl
  | succ n ih =>
    have hi : (drainByte s).idx.toNat = s.idx.toNat + 1 := idx_succ (b := s.dcnt.toNat) (by omega) (by omega)
    rw [finishRequest_goto (by decide) hr, phaseStep_xDrain]
    rw [if_pos (by simp only [moreToDrain, hi, drainByte_dcnt, decide_eq_true_eq]; omega),
      ih (by simpa using hr) (by simp only [hi, drainByte_dcnt]; omega) (by simpa using hl),
      drainLoop_more (n := n + 1) (by omega)]

/-! ## The pairs of phases that are SETB or CLRB, and the two ends of a request -/

theorem finishRequest_xIrq (hr : s.resetIn = none) :
    finishRequest (goto .xIrqRd s) = finishRequest (goto .xFlushRd (clrb s.cfg.regIrq s.cfg.irqClear s)) := by
  rw [finishRequest_goto (by decide) hr, phaseStep_xIrqRd,
    finishRequest_goto (by decide) (by simpa using hr), phaseStep_xIrqWr]; rfl

theorem finishRequest_xFlush (hr : s.resetIn = none) :
    finishRequest (goto .xFlushRd s) = finishRequest (goto .xIdleWr (setb s.cfg.regFifoLevel s.cfg.fifoFlush s)) := by
  rw [finishRequest_goto (by decide) hr, phaseStep_xFlushRd,
    finishRequest_goto (by decide) (by simpa using hr), phaseStep_xFlushWr]; rfl

theorem finishRequest_xStart (hr : s.resetIn = none) :
    finishRequest (goto .xStartRd s) =
      finishRequest (goto .xPoll (loadCnt s.cfg.pollBudget (setb s.cfg.regBitFraming s.cfg.startSend s))) := by
  rw [finishRequest_goto (by decide) hr, phaseStep_xStartRd,
    finishRequest_goto (by decide) (by simpa using hr), phaseStep_xStartWr]; rfl

theorem finishRequest_xStop (hr : s.resetIn = none) :
    finishRequest (goto .xStopRd s) =
      finishRequest (goto (if exhausted s then .xDone else .xErrRd) (clrb s.cfg.regBitFraming s.cfg.startSend s)) := by
  rw [finishRequest_goto (by decide) hr, phaseStep_xStopRd,
    finishRequest_goto (by decide) (by simpa using hr), phaseStep_xStopWr]; rfl

theorem finishRequest_cClr (hr : s.resetIn = none) :
    finishRequest (goto .cClrRd s) = finishRequest (goto .cFlushRd (clrb s.cfg.regDivIrq s.cfg.crcDone s)) := by
  rw [finishRequest_goto (by decide) hr, phaseStep_cClrRd,
    finishRequest_goto (by decide) (by simpa using hr), phaseStep_cClrWr]; rfl

theorem finishRequest_cFlush (hr : s.resetIn = none) :
    finishRequest (goto .cFlushRd s) =
      finishRequest (goto (if s.len ≠ 0 then .cLoad else .cCmdWr) (setb s.cfg.regFifoLevel s.cfg.fifoFlush s)) := by
  rw [finishRequest_goto (by decide) hr, phaseStep_cFlushRd,
    finishRequest_goto (by decide) (by simpa using hr), phaseStep_cFlushWr]; rfl

theorem finishRequest_xDone (hr : s.resetIn = none) :
    finishRequest (goto .xDone s) = respond (.exec s.status (payload s) s.vb s.bitLen) s := by
  rw [finishRequest_goto (by decide) hr, phaseStep_xDone, finishRequest_idle rfl]

theorem finishRequest_cRes (hr : s.resetIn = none) :
    finishRequest (goto .cResL s) =
      respond (.crc (readCrcH (readCrcL s)).crcL (readCrcH (readCrcL s)).crcH) (readCrcH (readCrcL s)) := by
  rw [finishRequest_goto (by decide) hr, phaseStep_cResL, finishRequest_goto (by decide) (by simpa using hr),
    phaseStep_cResH, finishRequest_goto (by decide) (by simpa using hr), phaseStep_cDone, finishRequest_idle rfl]

/-! ## What the loops leave unchanged -/

/-- A property that every pass keeps, the load loop keeps; and likewise the other loops. -/
theorem loadLoop_keeps {P : State → Prop} (pass : ∀ u, P u → P (loadByte u)) (n : Nat) (h : P s) :
    P (loadLoop n s) := by
  induction n generalizing s with
  | zero => exact h
  | succ n ih => rw [loadLoop]; split <;> [exact ih (pass _ h); exact h]

theorem pollLoop_keeps {P : State → Prop} (pass : ∀ u a, P u → P (pollOnce a u)) (n : Nat) (h : P s) :
    P (pollLoop n s) := by
  induction n generalizing s with
  | zero => exact h
  | succ n ih =>
    rw [pollLoop]
    split <;> [exact pass _ _ h; exact ih (pass _ _ h)]

theorem crcPollLoop_keeps {P : State → Prop} (pass : ∀ u a, P u → P (pollOnce a u)) (n : Nat) (h : P s) :
    P (crcPollLoop n s) := by
  induction n generalizing s with
  | zero => exact h
  | succ n ih =>
    rw [crcPollLoop]
    split <;> [exact pass _ _ h; exact ih (pass _ _ h)]

theorem drainLoop_keeps {P : State → Prop} (pass : ∀ u, P u → P (drainByte u)) (n : Nat) (h : P s) :
    P (drainLoop n s) := by
  induction n generalizing s with
  | zero => exact h
  | succ n ih => rw [drainLoop]; split <;> [exact ih (pass _ h); exact h]

/-! ## The fields no pass of a loop writes -/

@[simp] theorem loadLoop_cfg (n : Nat) : (loadLoop n s).cfg = s.cfg :=
  loadLoop_keeps (P := fun u => u.cfg = s.cfg) (fun _ h => h) n rfl
@[simp] theorem loadLoop_phase (n : Nat) : (loadLoop n s).phase = s.phase :=
  loadLoop_keeps (P := fun u => u.phase = s.phase) (fun _ h => h) n rfl
@[simp] theorem loadLoop_op (n : Nat) : (loadLoop n s).op = s.op :=
  loadLoop_keeps (P := fun u => u.op = s.op) (fun _ h => h) n rfl
@[simp] theorem loadLoop_cmd (n : Nat) : (loadLoop n s).cmd = s.cmd :=
  loadLoop_keeps (P := fun u => u.cmd = s.cmd) (fun _ h => h) n rfl
@[simp] theorem loadLoop_len (n : Nat) : (loadLoop n s).len = s.len :=
  loadLoop_keeps (P := fun u => u.len = s.len) (fun _ h => h) n rfl
@[simp] theorem loadLoop_inBuf (n : Nat) : (loadLoop n s).inBuf = s.inBuf :=
  loadLoop_keeps (P := fun u => u.inBuf = s.inBuf) (fun _ h => h) n rfl
@[simp] theorem loadLoop_ien (n : Nat) : (loadLoop n s).ien = s.ien :=
  loadLoop_keeps (P := fun u => u.ien = s.ien) (fun _ h => h) n rfl
@[simp] theorem loadLoop_wait (n : Nat) : (loadLoop n s).wait = s.wait :=
  loadLoop_keeps (P := fun u => u.wait = s.wait) (fun _ h => h) n rfl
@[simp] theorem loadLoop_cnt (n : Nat) : (loadLoop n s).cnt = s.cnt :=
  loadLoop_keeps (P := fun u => u.cnt = s.cnt) (fun _ h => h) n rfl
@[simp] theorem loadLoop_t (n : Nat) : (loadLoop n s).t = s.t :=
  loadLoop_keeps (P := fun u => u.t = s.t) (fun _ h => h) n rfl
@[simp] theorem loadLoop_nirq (n : Nat) : (loadLoop n s).nirq = s.nirq :=
  loadLoop_keeps (P := fun u => u.nirq = s.nirq) (fun _ h => h) n rfl
@[simp] theorem loadLoop_err (n : Nat) : (loadLoop n s).err = s.err :=
  loadLoop_keeps (P := fun u => u.err = s.err) (fun _ h => h) n rfl
@[simp] theorem loadLoop_lvl (n : Nat) : (loadLoop n s).lvl = s.lvl :=
  loadLoop_keeps (P := fun u => u.lvl = s.lvl) (fun _ h => h) n rfl
@[simp] theorem loadLoop_vb (n : Nat) : (loadLoop n s).vb = s.vb :=
  loadLoop_keeps (P := fun u => u.vb = s.vb) (fun _ h => h) n rfl
@[simp] theorem loadLoop_dcnt (n : Nat) : (loadLoop n s).dcnt = s.dcnt :=
  loadLoop_keeps (P := fun u => u.dcnt = s.dcnt) (fun _ h => h) n rfl
@[simp] theorem loadLoop_bitLen (n : Nat) : (loadLoop n s).bitLen = s.bitLen :=
  loadLoop_keeps (P := fun u => u.bitLen = s.bitLen) (fun _ h => h) n rfl
@[simp] theorem loadLoop_outBuf (n : Nat) : (loadLoop n s).outBuf = s.outBuf :=
  loadLoop_keeps (P := fun u => u.outBuf = s.outBuf) (fun _ h => h) n rfl
@[simp] theorem loadLoop_olen (n : Nat) : (loadLoop n s).olen = s.olen :=
  loadLoop_keeps (P := fun u => u.olen = s.olen) (fun _ h => h) n rfl
@[simp] theorem loadLoop_status (n : Nat) : (loadLoop n s).status = s.status :=
  loadLoop_keeps (P := fun u => u.status = s.status) (fun _ h => h) n rfl
@[simp] theorem loadLoop_crcL (n : Nat) : (loadLoop n s).crcL = s.crcL :=
  loadLoop_keeps (P := fun u => u.crcL = s.crcL) (fun _ h => h) n rfl
@[simp] theorem loadLoop_crcH (n : Nat) : (loadLoop n s).crcH = s.crcH :=
  loadLoop_keeps (P := fun u => u.crcH = s.crcH) (fun _ h => h) n rfl
@[simp] theorem loadLoop_answers (n : Nat) : (loadLoop n s).answers = s.answers :=
  loadLoop_keeps (P := fun u => u.answers = s.answers) (fun _ h => h) n rfl
@[simp] theorem loadLoop_reads (n : Nat) : (loadLoop n s).reads = s.reads :=
  loadLoop_keeps (P := fun u => u.reads = s.reads) (fun _ h => h) n rfl
@[simp] theorem loadLoop_inbox (n : Nat) : (loadLoop n s).inbox = s.inbox :=
  loadLoop_keeps (P := fun u => u.inbox = s.inbox) (fun _ h => h) n rfl
@[simp] theorem loadLoop_responses (n : Nat) : (loadLoop n s).responses = s.responses :=
  loadLoop_keeps (P := fun u => u.responses = s.responses) (fun _ h => h) n rfl
@[simp] theorem loadLoop_resetIn (n : Nat) : (loadLoop n s).resetIn = s.resetIn :=
  loadLoop_keeps (P := fun u => u.resetIn = s.resetIn) (fun _ h => h) n rfl

@[simp] theorem pollLoop_cfg (n : Nat) : (pollLoop n s).cfg = s.cfg :=
  pollLoop_keeps (P := fun u => u.cfg = s.cfg) (fun _ _ h => h) n rfl
@[simp] theorem pollLoop_phase (n : Nat) : (pollLoop n s).phase = s.phase :=
  pollLoop_keeps (P := fun u => u.phase = s.phase) (fun _ _ h => h) n rfl
@[simp] theorem pollLoop_op (n : Nat) : (pollLoop n s).op = s.op :=
  pollLoop_keeps (P := fun u => u.op = s.op) (fun _ _ h => h) n rfl
@[simp] theorem pollLoop_cmd (n : Nat) : (pollLoop n s).cmd = s.cmd :=
  pollLoop_keeps (P := fun u => u.cmd = s.cmd) (fun _ _ h => h) n rfl
@[simp] theorem pollLoop_len (n : Nat) : (pollLoop n s).len = s.len :=
  pollLoop_keeps (P := fun u => u.len = s.len) (fun _ _ h => h) n rfl
@[simp] theorem pollLoop_inBuf (n : Nat) : (pollLoop n s).inBuf = s.inBuf :=
  pollLoop_keeps (P := fun u => u.inBuf = s.inBuf) (fun _ _ h => h) n rfl
@[simp] theorem pollLoop_idx (n : Nat) : (pollLoop n s).idx = s.idx :=
  pollLoop_keeps (P := fun u => u.idx = s.idx) (fun _ _ h => h) n rfl
@[simp] theorem pollLoop_ien (n : Nat) : (pollLoop n s).ien = s.ien :=
  pollLoop_keeps (P := fun u => u.ien = s.ien) (fun _ _ h => h) n rfl
@[simp] theorem pollLoop_wait (n : Nat) : (pollLoop n s).wait = s.wait :=
  pollLoop_keeps (P := fun u => u.wait = s.wait) (fun _ _ h => h) n rfl
@[simp] theorem pollLoop_t (n : Nat) : (pollLoop n s).t = s.t :=
  pollLoop_keeps (P := fun u => u.t = s.t) (fun _ _ h => h) n rfl
@[simp] theorem pollLoop_err (n : Nat) : (pollLoop n s).err = s.err :=
  pollLoop_keeps (P := fun u => u.err = s.err) (fun _ _ h => h) n rfl
@[simp] theorem pollLoop_lvl (n : Nat) : (pollLoop n s).lvl = s.lvl :=
  pollLoop_keeps (P := fun u => u.lvl = s.lvl) (fun _ _ h => h) n rfl
@[simp] theorem pollLoop_vb (n : Nat) : (pollLoop n s).vb = s.vb :=
  pollLoop_keeps (P := fun u => u.vb = s.vb) (fun _ _ h => h) n rfl
@[simp] theorem pollLoop_dcnt (n : Nat) : (pollLoop n s).dcnt = s.dcnt :=
  pollLoop_keeps (P := fun u => u.dcnt = s.dcnt) (fun _ _ h => h) n rfl
@[simp] theorem pollLoop_bitLen (n : Nat) : (pollLoop n s).bitLen = s.bitLen :=
  pollLoop_keeps (P := fun u => u.bitLen = s.bitLen) (fun _ _ h => h) n rfl
@[simp] theorem pollLoop_outBuf (n : Nat) : (pollLoop n s).outBuf = s.outBuf :=
  pollLoop_keeps (P := fun u => u.outBuf = s.outBuf) (fun _ _ h => h) n rfl
@[simp] theorem pollLoop_olen (n : Nat) : (pollLoop n s).olen = s.olen :=
  pollLoop_keeps (P := fun u => u.olen = s.olen) (fun _ _ h => h) n rfl
@[simp] theorem pollLoop_status (n : Nat) : (pollLoop n s).status = s.status :=
  pollLoop_keeps (P := fun u => u.status = s.status) (fun _ _ h => h) n rfl
@[simp] theorem pollLoop_crcL (n : Nat) : (pollLoop n s).crcL = s.crcL :=
  pollLoop_keeps (P := fun u => u.crcL = s.crcL) (fun _ _ h => h) n rfl
@[simp] theorem pollLoop_crcH (n : Nat) : (pollLoop n s).crcH = s.crcH :=
  pollLoop_keeps (P := fun u => u.crcH = s.crcH) (fun _ _ h => h) n rfl
@[simp] theorem pollLoop_mem (n : Nat) : (pollLoop n s).mem = s.mem :=
  pollLoop_keeps (P := fun u => u.mem = s.mem) (fun _ _ h => h) n rfl
@[simp] theorem pollLoop_inbox (n : Nat) : (pollLoop n s).inbox = s.inbox :=
  pollLoop_keeps (P := fun u => u.inbox = s.inbox) (fun _ _ h => h) n rfl
@[simp] theorem pollLoop_responses (n : Nat) : (pollLoop n s).responses = s.responses :=
  pollLoop_keeps (P := fun u => u.responses = s.responses) (fun _ _ h => h) n rfl
@[simp] theorem pollLoop_resetIn (n : Nat) : (pollLoop n s).resetIn = s.resetIn :=
  pollLoop_keeps (P := fun u => u.resetIn = s.resetIn) (fun _ _ h => h) n rfl

@[simp] theorem crcPollLoop_cfg (n : Nat) : (crcPollLoop n s).cfg = s.cfg :=
  crcPollLoop_keeps (P := fun u => u.cfg = s.cfg) (fun _ _ h => h) n rfl
@[simp] theorem crcPollLoop_phase (n : Nat) : (crcPollLoop n s).phase = s.phase :=
  crcPollLoop_keeps (P := fun u => u.phase = s.phase) (fun _ _ h => h) n rfl
@[simp] theorem crcPollLoop_op (n : Nat) : (crcPollLoop n s).op = s.op :=
  crcPollLoop_keeps (P := fun u => u.op = s.op) (fun _ _ h => h) n rfl
@[simp] theorem crcPollLoop_cmd (n : Nat) : (crcPollLoop n s).cmd = s.cmd :=
  crcPollLoop_keeps (P := fun u => u.cmd = s.cmd) (fun _ _ h => h) n rfl
@[simp] theorem crcPollLoop_len (n : Nat) : (crcPollLoop n s).len = s.len :=
  crcPollLoop_keeps (P := fun u => u.len = s.len) (fun _ _ h => h) n rfl
@[simp] theorem crcPollLoop_inBuf (n : Nat) : (crcPollLoop n s).inBuf = s.inBuf :=
  crcPollLoop_keeps (P := fun u => u.inBuf = s.inBuf) (fun _ _ h => h) n rfl
@[simp] theorem crcPollLoop_idx (n : Nat) : (crcPollLoop n s).idx = s.idx :=
  crcPollLoop_keeps (P := fun u => u.idx = s.idx) (fun _ _ h => h) n rfl
@[simp] theorem crcPollLoop_ien (n : Nat) : (crcPollLoop n s).ien = s.ien :=
  crcPollLoop_keeps (P := fun u => u.ien = s.ien) (fun _ _ h => h) n rfl
@[simp] theorem crcPollLoop_wait (n : Nat) : (crcPollLoop n s).wait = s.wait :=
  crcPollLoop_keeps (P := fun u => u.wait = s.wait) (fun _ _ h => h) n rfl
@[simp] theorem crcPollLoop_t (n : Nat) : (crcPollLoop n s).t = s.t :=
  crcPollLoop_keeps (P := fun u => u.t = s.t) (fun _ _ h => h) n rfl
@[simp] theorem crcPollLoop_err (n : Nat) : (crcPollLoop n s).err = s.err :=
  crcPollLoop_keeps (P := fun u => u.err = s.err) (fun _ _ h => h) n rfl
@[simp] theorem crcPollLoop_lvl (n : Nat) : (crcPollLoop n s).lvl = s.lvl :=
  crcPollLoop_keeps (P := fun u => u.lvl = s.lvl) (fun _ _ h => h) n rfl
@[simp] theorem crcPollLoop_vb (n : Nat) : (crcPollLoop n s).vb = s.vb :=
  crcPollLoop_keeps (P := fun u => u.vb = s.vb) (fun _ _ h => h) n rfl
@[simp] theorem crcPollLoop_dcnt (n : Nat) : (crcPollLoop n s).dcnt = s.dcnt :=
  crcPollLoop_keeps (P := fun u => u.dcnt = s.dcnt) (fun _ _ h => h) n rfl
@[simp] theorem crcPollLoop_bitLen (n : Nat) : (crcPollLoop n s).bitLen = s.bitLen :=
  crcPollLoop_keeps (P := fun u => u.bitLen = s.bitLen) (fun _ _ h => h) n rfl
@[simp] theorem crcPollLoop_outBuf (n : Nat) : (crcPollLoop n s).outBuf = s.outBuf :=
  crcPollLoop_keeps (P := fun u => u.outBuf = s.outBuf) (fun _ _ h => h) n rfl
@[simp] theorem crcPollLoop_olen (n : Nat) : (crcPollLoop n s).olen = s.olen :=
  crcPollLoop_keeps (P := fun u => u.olen = s.olen) (fun _ _ h => h) n rfl
@[simp] theorem crcPollLoop_status (n : Nat) : (crcPollLoop n s).status = s.status :=
  crcPollLoop_keeps (P := fun u => u.status = s.status) (fun _ _ h => h) n rfl
@[simp] theorem crcPollLoop_crcL (n : Nat) : (crcPollLoop n s).crcL = s.crcL :=
  crcPollLoop_keeps (P := fun u => u.crcL = s.crcL) (fun _ _ h => h) n rfl
@[simp] theorem crcPollLoop_crcH (n : Nat) : (crcPollLoop n s).crcH = s.crcH :=
  crcPollLoop_keeps (P := fun u => u.crcH = s.crcH) (fun _ _ h => h) n rfl
@[simp] theorem crcPollLoop_mem (n : Nat) : (crcPollLoop n s).mem = s.mem :=
  crcPollLoop_keeps (P := fun u => u.mem = s.mem) (fun _ _ h => h) n rfl
@[simp] theorem crcPollLoop_inbox (n : Nat) : (crcPollLoop n s).inbox = s.inbox :=
  crcPollLoop_keeps (P := fun u => u.inbox = s.inbox) (fun _ _ h => h) n rfl
@[simp] theorem crcPollLoop_responses (n : Nat) : (crcPollLoop n s).responses = s.responses :=
  crcPollLoop_keeps (P := fun u => u.responses = s.responses) (fun _ _ h => h) n rfl
@[simp] theorem crcPollLoop_resetIn (n : Nat) : (crcPollLoop n s).resetIn = s.resetIn :=
  crcPollLoop_keeps (P := fun u => u.resetIn = s.resetIn) (fun _ _ h => h) n rfl

@[simp] theorem drainLoop_cfg (n : Nat) : (drainLoop n s).cfg = s.cfg :=
  drainLoop_keeps (P := fun u => u.cfg = s.cfg) (fun _ h => h) n rfl
@[simp] theorem drainLoop_phase (n : Nat) : (drainLoop n s).phase = s.phase :=
  drainLoop_keeps (P := fun u => u.phase = s.phase) (fun _ h => h) n rfl
@[simp] theorem drainLoop_op (n : Nat) : (drainLoop n s).op = s.op :=
  drainLoop_keeps (P := fun u => u.op = s.op) (fun _ h => h) n rfl
@[simp] theorem drainLoop_cmd (n : Nat) : (drainLoop n s).cmd = s.cmd :=
  drainLoop_keeps (P := fun u => u.cmd = s.cmd) (fun _ h => h) n rfl
@[simp] theorem drainLoop_len (n : Nat) : (drainLoop n s).len = s.len :=
  drainLoop_keeps (P := fun u => u.len = s.len) (fun _ h => h) n rfl
@[simp] theorem drainLoop_inBuf (n : Nat) : (drainLoop n s).inBuf = s.inBuf :=
  drainLoop_keeps (P := fun u => u.inBuf = s.inBuf) (fun _ h => h) n rfl
@[simp] theorem drainLoop_ien (n : Nat) : (drainLoop n s).ien = s.ien :=
  drainLoop_keeps (P := fun u => u.ien = s.ien) (fun _ h => h) n rfl
@[simp] theorem drainLoop_wait (n : Nat) : (drainLoop n s).wait = s.wait :=
  drainLoop_keeps (P := fun u => u.wait = s.wait) (fun _ h => h) n rfl
@[simp] theorem drainLoop_cnt (n : Nat) : (drainLoop n s).cnt = s.cnt :=
  drainLoop_keeps (P := fun u => u.cnt = s.cnt) (fun _ h => h) n rfl
@[simp] theorem drainLoop_t (n : Nat) : (drainLoop n s).t = s.t :=
  drainLoop_keeps (P := fun u => u.t = s.t) (fun _ h => h) n rfl
@[simp] theorem drainLoop_nirq (n : Nat) : (drainLoop n s).nirq = s.nirq :=
  drainLoop_keeps (P := fun u => u.nirq = s.nirq) (fun _ h => h) n rfl
@[simp] theorem drainLoop_err (n : Nat) : (drainLoop n s).err = s.err :=
  drainLoop_keeps (P := fun u => u.err = s.err) (fun _ h => h) n rfl
@[simp] theorem drainLoop_lvl (n : Nat) : (drainLoop n s).lvl = s.lvl :=
  drainLoop_keeps (P := fun u => u.lvl = s.lvl) (fun _ h => h) n rfl
@[simp] theorem drainLoop_vb (n : Nat) : (drainLoop n s).vb = s.vb :=
  drainLoop_keeps (P := fun u => u.vb = s.vb) (fun _ h => h) n rfl
@[simp] theorem drainLoop_dcnt (n : Nat) : (drainLoop n s).dcnt = s.dcnt :=
  drainLoop_keeps (P := fun u => u.dcnt = s.dcnt) (fun _ h => h) n rfl
@[simp] theorem drainLoop_bitLen (n : Nat) : (drainLoop n s).bitLen = s.bitLen :=
  drainLoop_keeps (P := fun u => u.bitLen = s.bitLen) (fun _ h => h) n rfl
@[simp] theorem drainLoop_status (n : Nat) : (drainLoop n s).status = s.status :=
  drainLoop_keeps (P := fun u => u.status = s.status) (fun _ h => h) n rfl
@[simp] theorem drainLoop_crcL (n : Nat) : (drainLoop n s).crcL = s.crcL :=
  drainLoop_keeps (P := fun u => u.crcL = s.crcL) (fun _ h => h) n rfl
@[simp] theorem drainLoop_crcH (n : Nat) : (drainLoop n s).crcH = s.crcH :=
  drainLoop_keeps (P := fun u => u.crcH = s.crcH) (fun _ h => h) n rfl
@[simp] theorem drainLoop_mem (n : Nat) : (drainLoop n s).mem = s.mem :=
  drainLoop_keeps (P := fun u => u.mem = s.mem) (fun _ h => h) n rfl
@[simp] theorem drainLoop_inbox (n : Nat) : (drainLoop n s).inbox = s.inbox :=
  drainLoop_keeps (P := fun u => u.inbox = s.inbox) (fun _ h => h) n rfl
@[simp] theorem drainLoop_responses (n : Nat) : (drainLoop n s).responses = s.responses :=
  drainLoop_keeps (P := fun u => u.responses = s.responses) (fun _ h => h) n rfl
@[simp] theorem drainLoop_resetIn (n : Nat) : (drainLoop n s).resetIn = s.resetIn :=
  drainLoop_keeps (P := fun u => u.resetIn = s.resetIn) (fun _ h => h) n rfl

end Sys2Proof.Machine
end

