-- ==== Sys2Proof/Laws/PerInstr.lean ====
section
/-! SUPPORT. Families of statements made per instruction (LAWS.json). -/

namespace Sys2Proof.Laws.EncodedLength

/-- The length of the encoding: `3 + LEN` bytes for a request (R71, R87), the address byte and for a write a data byte
for a bus primitive (R80, R81). -/
def Statement (i : Instr) : Prop :=
  ∀ c : Cfg, (encode c i).length =
    match i with
    | .busWr _ _ => 2
    | .busRd _ => 1
    | j => 3 + j.data.length

theorem frame_length (op cmd : Byte) (d : List Byte) : (encodeFrame op cmd d).length = 3 + d.length := by
  simp [encodeFrame]; omega

theorem execIdle (d : List Byte) : Statement (.execIdle d) := fun _ => frame_length _ _ d
theorem execCalcCrc (d : List Byte) : Statement (.execCalcCrc d) := fun _ => frame_length _ _ d
theorem execTransceive (d : List Byte) : Statement (.execTransceive d) := fun _ => frame_length _ _ d
theorem execAuthent (d : List Byte) : Statement (.execAuthent d) := fun _ => frame_length _ _ d
theorem execSoftReset (d : List Byte) : Statement (.execSoftReset d) := fun _ => frame_length _ _ d
theorem execOther (cmd : Byte) (d : List Byte) : Statement (.execOther cmd d) := fun _ => frame_length _ _ d
theorem crc (d : List Byte) : Statement (.crc d) := fun _ => frame_length _ _ d
theorem busWr (a : BusAddr) (v : Byte) : Statement (.busWr a v) := fun _ => rfl
theorem busRd (a : BusAddr) : Statement (.busRd a) := fun _ => rfl

end Sys2Proof.Laws.EncodedLength
end

