-- ==== Sys2Proof/Laws/Step.lean ====
section
/-! SUPPORT. The step of the block: what `fetch` says in each case, and what `step` does with it. -/

namespace Sys2Proof.Machine

variable {s : State}

theorem fetch_illegal (h : s.cfg.legal = false) : fetch s = .refuse .illegalCfg := by
  rw [fetch, if_pos h]

theorem fetch_reset (hl : s.cfg.legal = true) (h : s.resetIn = some 0) : fetch s = .settle (resetEngine s) := by
  rw [fetch, if_neg (by rw [hl]; decide), if_pos (resetNow_iff.2 h)]

theorem fetch_busy (hl : s.cfg.legal = true) (hr : s.resetIn ≠ some 0) (h : s.phase ≠ .idle) :
    fetch s = .settle (finishRequest s) := by
  rw [fetch, if_neg (by rw [hl]; decide), if_neg (by rw [resetNow_iff]; exact hr), if_neg h]

theorem fetch_idle (hl : s.cfg.legal = true) (hr : s.resetIn ≠ some 0) (h : s.phase = .idle) :
    fetch s = fetchIdle s := by
  rw [fetch, if_neg (by rw [hl]; decide), if_neg (by rw [resetNow_iff]; exact hr), if_pos h]

theorem fetchIdle_nil (h : s.inbox = []) : fetchIdle s = .settle (tick s) := by simp only [fetchIdle, h]

theorem fetchIdle_request {bytes : List Byte} {rest : List Inbound} (h : s.inbox = .request bytes :: rest) :
    fetchIdle s = dispatchDecoded .request rest s (decodeRequest s.cfg bytes) := by simp only [fetchIdle, h]

theorem fetchIdle_access {bytes : List Byte} {rest : List Inbound} (h : s.inbox = .access bytes :: rest) :
    fetchIdle s = dispatchDecoded .access rest s (decodeBus bytes) := by simp only [fetchIdle, h]

theorem step_refuse {r : Refusal} (h : fetch s = .refuse r) : step s = .refused r := by
  unfold step; rw [h]

theorem step_settle {t : State} (h : fetch s = .settle t) : step s = .next t := by
  unfold step; rw [h]

theorem step_run {i : Instr} {t : State} (h : fetch s = .run i t) : step s = exec i t := by
  unfold step; rw [h]

/-- With no reset scheduled the countdown does nothing. -/
theorem tick_of_none (h : s.resetIn = none) : tick s = s := by
  cases s; simp only at h; subst h; rfl

/-! ## The meanings, without unfolding `finishRequest` -/

theorem exec_execIdle (d : List Byte) : exec (.execIdle d) s = .next (runExec s.cfg.cmdIdle d s) := rfl
theorem exec_execCalcCrc (d : List Byte) : exec (.execCalcCrc d) s = .next (runExec s.cfg.cmdCalcCrc d s) := rfl
theorem exec_execTransceive (d : List Byte) :
    exec (.execTransceive d) s = .next (runExec s.cfg.cmdTransceive d s) := rfl
theorem exec_execAuthent (d : List Byte) : exec (.execAuthent d) s = .next (runExec s.cfg.cmdAuthent d s) := rfl
theorem exec_execSoftReset (d : List Byte) :
    exec (.execSoftReset d) s = .next (runExec s.cfg.cmdSoftReset d s) := rfl
theorem exec_execOther (cmd : Byte) (d : List Byte) : exec (.execOther cmd d) s = .next (runExec cmd d s) := rfl
theorem exec_crc (d : List Byte) : exec (.crc d) s = .next (runCrc d s) := rfl
theorem exec_busWr (a : BusAddr) (v : Byte) : exec (.busWr a v) s = .next (busWrite (a.setWidth 8) v s) := rfl
theorem exec_busRd (a : BusAddr) : exec (.busRd a) s = .next (busRead (a.setWidth 8) s) := rfl

end Sys2Proof.Machine
end

