-- ==== Sys2Proof/Tests/Slice0.lean ====
section
/-! SUPPORT. Tests. Expected values are the spec's: encodings of 30_encoding.md, vectors of 95_test_vectors.md (named in
each comment) and worked examples of the rules. Then, for every statement with hypotheses, states and operands that meet
them (`wit_...`). -/

namespace Sys2Proof.Tests

open Sys2Proof Sys2Proof.Machine

/-! ## WellFormed refuses an ill-formed term of each kind -/

/-- A CFG that gives every named command the opcode of Idle: each named row but the first is then unreachable. -/
def cfgOneOpcode : Cfg :=
  { Cfg.default with cmdIdle := 0x0E, cmdCalcCrc := 0x0E, cmdTransceive := 0x0E, cmdAuthent := 0x0E, cmdSoftReset := 0x0E }

theorem test_wf_data_too_long : (Instr.crc (List.replicate 256 0)).wellFormed Cfg.default = false := by decide +kernel
theorem test_wf_data_longest : (Instr.crc (List.replicate 255 0)).wellFormed Cfg.default = true := by decide +kernel
theorem test_wf_named_command_as_other :
    [Cfg.default.cmdIdle, Cfg.default.cmdCalcCrc, Cfg.default.cmdTransceive, Cfg.default.cmdAuthent,
      Cfg.default.cmdSoftReset].all (fun x => !(Instr.execOther x []).wellFormed Cfg.default) = true := by decide
theorem test_wf_shared_opcode :
    [Instr.execCalcCrc [], .execTransceive [], .execAuthent [], .execSoftReset []].all
      (fun i => !i.wellFormed cfgOneOpcode) = true := by decide
theorem test_wf_shared_with_calccrc :
    [Instr.execTransceive [], .execAuthent [], .execSoftReset []].all
      (fun i => !i.wellFormed { cfgOneOpcode with cmdIdle := 0x00 }) = true := by decide
theorem test_wf_shared_with_transceive :
    [Instr.execAuthent [], .execSoftReset []].all
      (fun i => !i.wellFormed { cfgOneOpcode with cmdIdle := 0x00, cmdCalcCrc := 0x03 }) = true := by decide
theorem test_wf_shared_with_authent :
    (Instr.execSoftReset []).wellFormed
      { cfgOneOpcode with cmdIdle := 0x00, cmdCalcCrc := 0x03, cmdTransceive := 0x0C } = false := by decide

/-- One CFG per clause of R9 that the types leave open; none is legal, the default is. -/
theorem test_legal_each_clause :
    Cfg.default.legal = true ∧
    [{ Cfg.default with pollBudget := 0 }, { Cfg.default with crcBudget := 0 }, { Cfg.default with maxLen := 0 },
     { Cfg.default with maxLen := 17 }, { Cfg.default with regIrq := 0x40 }, { Cfg.default with regIrq := 0x3F },
     { Cfg.default with regIrq := 0x05 }, { Cfg.default with cmdAuthent := 0x0C }, { Cfg.default with irqTimer := 0 },
     { Cfg.default with startSend := 0 }, { Cfg.default with fifoFlush := 0 }, { Cfg.default with crcDone := 0 },
     { Cfg.default with lastBitsLsb := 6 }, { Cfg.default with stNoTag := 0 }, { Cfg.default with stErr := 0 },
     { Cfg.default with stErr := 1 }, { Cfg.default with reserved := [0x01] }].all (fun c => !c.legal) = true := by decide

/-! ## Decoding: words written out from the spec's encodings, one per constructor -/

-- R83 row EXEC.IDLE, frame of V10: 00 00 00
theorem test_decode_execIdle : decodeRequest Cfg.default [0b00000000, 0b00000000, 0b00000000] = .instr (.execIdle []) [] := by
  decide
-- R83 row EXEC.CALCCRC, the example of R129: 00 03 02 30 04
theorem test_decode_execCalcCrc :
    decodeRequest Cfg.default [0b00000000, 0b00000011, 0b00000010, 0x30, 0x04] = .instr (.execCalcCrc [0x30, 0x04]) [] := by
  decide
-- R83 row EXEC.TRANSCEIVE, frame of V1: 00 0C 01 26
theorem test_decode_execTransceive :
    decodeRequest Cfg.default [0b00000000, 0b00001100, 0b00000001, 0x26] = .instr (.execTransceive [0x26]) [] := by decide
-- R83 row EXEC.AUTHENT, frame of V9
theorem test_decode_execAuthent :
    decodeRequest Cfg.default
      [0b00000000, 0b00001110, 0b00001100, 0x60, 4, 0xFF, 0xFF, 0xFF, 0xFF, 0xFF, 0xFF, 0xDE, 0xAD, 0xBE, 0xEF]
      = .instr (.execAuthent [0x60, 4, 0xFF, 0xFF, 0xFF, 0xFF, 0xFF, 0xFF, 0xDE, 0xAD, 0xBE, 0xEF]) [] := by decide
-- R83 row EXEC.SOFTRESET, frame of V10b: 00 0F 00
theorem test_decode_execSoftReset :
    decodeRequest Cfg.default [0b00000000, 0b00001111, 0b00000000] = .instr (.execSoftReset []) [] := by decide
-- R83 row EXEC.OTHER, the example of R131: EXEC 04, 12 34
theorem test_decode_execOther :
    decodeRequest Cfg.default [0b00000000, 0b00000100, 0b00000010, 0x12, 0x34] = .instr (.execOther 0x04 [0x12, 0x34]) [] := by
  decide
-- R83 row CRC, frame of K1: 01 00 02 30 04
theorem test_decode_crc :
    decodeRequest Cfg.default [0b00000001, 0b00000000, 0b00000010, 0x30, 0x04] = .instr (.crc [0x30, 0x04]) [] := by decide
-- R80: AB = 0 a[5:0] 0 for a = 0x22, then the data byte
theorem test_decode_busWr : decodeBus [0b01000100, 0x99] = .instr (.busWr 0b100010 0x99) [] := by decide
-- R81: AB = 1 a[5:0] 0 for a = 0x21
theorem test_decode_busRd : decodeBus [0b11000010] = .instr (.busRd 0b100001) [] := by decide
-- R85: reserved OP, CRC with CMD, and the bytes after an illegal frame are kept (P5)
theorem test_decode_reject :
    decodeRequest Cfg.default [0x02, 0, 0] = .reject .reservedOp [] ∧
    decodeRequest Cfg.default [0x01, 0x05, 0x01, 0xAA, 0x7F] = .reject .crcCmd [0x7F] := by decide
-- 95_test_vectors.md Part 2 section 1: the eleven address bytes
theorem test_address_bytes :
    Cfg.default.registers.map addrByteWr = [0x02, 0x04, 0x08, 0x0A, 0x0C, 0x12, 0x14, 0x18, 0x1A, 0x44, 0x42] ∧
    Cfg.default.registers.map addrByteRd = [0x82, 0x84, 0x88, 0x8A, 0x8C, 0x92, 0x94, 0x98, 0x9A, 0xC4, 0xC2] ∧
    addrByteWr 0x3F = 0x7E ∧ addrByteRd 0x3F = 0xFE ∧ addrByteWr 0x49 = 0x12 ∧ addrByteRd 0x49 = 0x92 := by decide
-- R88, R89: `EXEC IDLE,`, `CRC 30 04`, `TRANSCEIVE 26`, `EXEC 04, 12`, a line that is none
theorem test_text :
    assemble Cfg.default ['E', 'X', 'E', 'C', ' ', 'I', 'D', 'L', 'E', ','] = some (.execIdle []) ∧
    assemble Cfg.default ['C', 'R', 'C', ' ', '3', '0', ' ', '0', '4'] = some (.crc [0x30, 0x04]) ∧
    assemble Cfg.default ['T', 'R', 'A', 'N', 'S', 'C', 'E', 'I', 'V', 'E', ' ', '2', '6'] = some (.execTransceive [0x26]) ∧
    assemble Cfg.default ['E', 'X', 'E', 'C', ' ', '0', '4', ',', ' ', '1', '2'] = some (.execOther 0x04 [0x12]) ∧
    assemble Cfg.default ['E', 'X', 'E', 'C', ' ', '0', '4'] = none ∧
    (Txn.read 0x04 0x14).text Cfg.default = some ['R', ' ', 'I', 'R', 'Q', '-', '>', '1', '4'] := by decide

/-! ## One step on a small state -/

/-- The reset state with one frame presented and the environment's answers. -/
def presented (frame answers : List Byte) : State :=
  { State.reset with inbox := [.request frame], answers := answers }

/-- The same under a CFG. -/
def presentedUnder (c : Cfg) (frame answers : List Byte) : State := { presented frame answers with cfg := c }

/-- The next state satisfies a test. -/
def nextIs (o : Host.Outcome State Fault Refusal) (p : State → Bool) : Bool :=
  match o with
  | .next t => p t
  | _ => false

-- V1, and its bus bytes W1 (the answered reads show their address byte only)
theorem test_execTransceive_card :
    nextIs (step (presented [0x00, 0x0C, 0x01, 0x26] [0x14, 0, 7, 0x44, 0x64, 0x87, 0, 2, 0x10, 4, 0])) (fun t =>
      t.responses.map Response.frame == [[0, 0, 2, 0, 0x10, 0, 4, 0]]
      && t.bus.flatMap Txn.wire == [0x04, 0xF7, 0x88, 0x08, 0x14, 0x94, 0x14, 0x80, 0x02, 0, 0x12, 0x26, 0x02, 0x0C, 0x9A,
        0x1A, 0x87, 0x88, 0x88, 0x9A, 0x1A, 0x07, 0x8C, 0x94, 0x98, 0x92, 0x92]
      && t.cnt == 1998 && t.idx == 2 && t.lvl == 2 && t.nirq == 0x64 && t.inbox == []) = true := by decide +kernel
-- V2c (flag on the last poll counts as exhausted), V3 (NoTagError with drain), V4 (chip error), V8 (negative bitLen), the example
-- of R126
theorem test_execTransceive_corners :
    nextIs (step (presentedUnder { Cfg.default with pollBudget := 3 } [0x00, 0x0C, 0x01, 0x26]
      [0, 0, 7, 0x44, 0x44, 0x64, 0x87])) (fun t => t.responses.map Response.frame == [[0, 2, 0, 0, 0, 0]]
        && t.bus.length == 15) = true ∧
    nextIs (step (presented [0x00, 0x0C, 0x01, 0x26] [0, 0, 7, 0x44, 0x45, 0x87, 0, 0, 0, 0]))
      (fun t => t.responses.map Response.frame == [[0, 1, 1, 0, 0, 0, 0]] && t.bus.length == 18) = true ∧
    nextIs (step (presented [0x00, 0x0C, 0x02, 0x93, 0x20] [0, 0, 0, 0x64, 0x80, 8]))
      (fun t => t.responses.map Response.frame == [[0, 2, 0, 0, 0, 0]] && t.bus.length == 15) = true ∧
    nextIs (step (presented [0x00, 0x0C, 0x01, 0x26] [0, 0, 7, 0x64, 0x87, 0, 0, 3, 0x5A]))
      (fun t => t.responses.map Response.frame == [[0, 0, 1, 3, 0xFB, 0xFF, 0x5A]]) = true ∧
    nextIs (step (presented [0x00, 0x0C, 0x04, 0xA0, 0x04, 0x7B, 0xF7] [0, 0, 0, 0x64, 0x80, 0, 1, 4, 0x0A]))
      (fun t => t.responses.map Response.frame == [[0, 0, 1, 4, 4, 0, 0x0A]] && t.bus.length == 20
        && t.bus.drop 16 == [.read 0x06 0, .read 0x0A 1, .read 0x0C 4, .read 0x09 0x0A]) = true := by decide +kernel
-- V9
theorem test_execAuthent_idle_flag :
    nextIs (exec (.execAuthent [0x60, 4, 0xFF, 0xFF, 0xFF, 0xFF, 0xFF, 0xFF, 0xDE, 0xAD, 0xBE, 0xEF])
      { State.reset with answers := [0, 0, 0, 0, 0x10, 0, 0] }) (fun t =>
        t.responses.map Response.frame == [[0, 0, 0, 0, 0, 0]] && t.bus.length == 25 && t.cnt == 1997
        && t.bus.take 1 == [.write 0x02 0x92]) = true := by decide +kernel
-- V9b: the timer bit is not in the enable mask
theorem test_execAuthent_timer :
    nextIs (exec (.execAuthent [0x60]) { State.reset with answers := [0, 0, 1, 0, 0] }) (fun t =>
      t.status == 0 && t.bus.length == 12) = true := by decide +kernel
-- V10
theorem test_execIdle_wait_bits_ignored :
    nextIs (exec (.execIdle []) { State.reset with answers := [0, 0, 0x10, 0x30, 1, 0, 0] }) (fun t =>
      t.bus == [.write 0x02 0x80, .read 0x04 0, .write 0x04 0, .read 0x0A 0, .write 0x0A 0x80, .write 0x01 0,
        .write 0x01 0, .read 0x04 0x10, .read 0x04 0x30, .read 0x04 1, .read 0x0D 0, .write 0x0D 0, .read 0x06 0]
      && t.status == 0) = true := by decide +kernel
-- V19
theorem test_execIdle_notag :
    nextIs (exec (.execIdle []) { presentedUnder { Cfg.default with ienOther := 0x01 } [] [0, 0, 1, 0, 0] with inbox := [] })
      (fun t => t.responses.map Response.frame == [[0, 1, 0, 0, 0, 0]] && t.bus.length == 11) = true := by decide +kernel
-- the example of R129
theorem test_execCalcCrc :
    nextIs (exec (.execCalcCrc [0x30, 0x04]) { State.reset with answers := [0, 0, 1, 0, 0] }) (fun t =>
      t.bus.drop 6 == [.write 0x09 0x30, .write 0x09 0x04, .write 0x01 0x03, .read 0x04 1, .read 0x0D 0, .write 0x0D 0,
        .read 0x06 0] && t.status == 0) = true := by decide +kernel
-- the example of R130 with a budget of 3 instead of 2000: Error by exhaustion, 9 + 3 transactions
theorem test_execSoftReset :
    nextIs (exec (.execSoftReset []) { State.reset with
      cfg := { Cfg.default with pollBudget := 3 }, answers := [0, 0, 0x74, 0x74, 0x74, 0] }) (fun t =>
        t.bus.length == 12 && t.status == 2 && t.phase == .idle) = true := by decide +kernel
-- the example of R131
theorem test_execOther :
    nextIs (exec (.execOther 0x04 [0x12, 0x34]) { State.reset with answers := [0, 0, 1, 0, 0] }) (fun t =>
      t.bus.drop 6 == [.write 0x09 0x12, .write 0x09 0x34, .write 0x01 0x04, .read 0x04 1, .read 0x0D 0, .write 0x0D 0,
        .read 0x06 0] && t.responses.map Response.frame == [[0, 0, 0, 0, 0, 0]]) = true := by decide +kernel
-- K1
theorem test_crc_done :
    nextIs (step (presented [0x01, 0x00, 0x02, 0x30, 0x04] [4, 0, 0, 0, 4, 0x26, 0xEE])) (fun t =>
      t.bus == [.read 0x05 4, .write 0x05 0, .read 0x0A 0, .write 0x0A 0x80, .write 0x09 0x30, .write 0x09 4,
        .write 0x01 3, .read 0x05 0, .read 0x05 0, .read 0x05 4, .read 0x22 0x26, .read 0x21 0xEE]
      && t.responses.map Response.frame == [[1, 0x26, 0xEE]] && t.cnt == 252 && t.status == 2) = true := by
  decide +kernel
-- K2b with a budget of 3: never done, the stale result is returned all the same
theorem test_crc_silent_failure :
    nextIs (exec (.crc [0x30]) { State.reset with
      cfg := { Cfg.default with crcBudget := 3 }, answers := [0, 0, 0, 0, 0, 0x57, 0xCD] }) (fun t =>
        t.responses.map Response.frame == [[1, 0x57, 0xCD]] && t.bus.length == 11 && t.cnt == 0) = true := by
  decide +kernel
-- B1: the requester's own access
theorem test_busWr :
    nextIs (step { State.reset with inbox := [.access [0x12, 0x26]] }) (fun t =>
      t.bus == [.write 0x09 0x26] && t.bus.flatMap Txn.wire == [0x12, 0x26] && Memory.read t.mem 9 == some 0x26) = true := by
  decide +kernel
-- B2
theorem test_busRd :
    nextIs (step { State.reset with inbox := [.access [0x88]], answers := [0x64] }) (fun t =>
      t.bus == [.read 0x04 0x64] && t.nirq == 0 && t.mem == []) = true := by decide +kernel
-- B3, B5
theorem test_setb_clrb :
    (setb 0x0D 0x80 { State.reset with answers := [0x07] }).bus = [.read 0x0D 0x07, .write 0x0D 0x87] ∧
    (setb 0x0D 0x80 { State.reset with answers := [0x87] }).bus = [.read 0x0D 0x87, .write 0x0D 0x87] ∧
    (clrb 0x04 0x80 { State.reset with answers := [0xFF] }).bus = [.read 0x04 0xFF, .write 0x04 0x7F] := by decide
-- P5, requests 1 to 3 on one stream
theorem test_reject :
    nextIs (step (presented [0x02, 0, 0, 0x01, 0x05, 0x01, 0xAA] [])) (fun t =>
      t.responses.map Response.frame == [[0xFF, 0x01]] && t.inbox == [.request [0x01, 0x05, 0x01, 0xAA]] && t.bus == []
      && nextIs (step t) (fun u => u.responses.map Response.frame == [[0xFF, 0x01], [0xFF, 0x02]] && u.inbox == []
        && u.bus == [] && u.status == 2)) = true := by decide +kernel
-- section 4 of Part 2: bitLen and DCNT at the corners
theorem test_bit_length :
    (bitLenOf 0 0).toInt = 0 ∧ (bitLenOf 0 1).toInt = -7 ∧ (bitLenOf 0 3) = 0xFFB ∧ (bitLenOf 1 4).toInt = 4 ∧
    (bitLenOf 16 7).toInt = 127 ∧ (bitLenOf 18 0).toInt = 144 ∧ (bitLenOf 255 0) = 0x7F8 ∧
    (bitLenOf 255 7).toInt = 2039 ∧ drainCount 16 0 = 1 ∧ drainCount 16 1 = 1 ∧ drainCount 16 16 = 16 ∧
    drainCount 16 17 = 16 ∧ drainCount 16 130 = 16 := by decide
-- R178: the reset input after three engine steps of a request
theorem test_reset_abandons :
    nextIs (exec (.execIdle []) { State.reset with resetIn := some 4, answers := [0x55] }) (fun t =>
      t.bus == [.write 0x02 0x80, .read 0x04 0x55, .write 0x04 0x55] && t.responses == [] && t.phase == .idle
      && t.t == 0) = true := by decide +kernel

/-! ## Witnesses: the hypotheses of the statements can be met -/

/-- A ready state. -/
theorem wit_ready : State.reset.Ready := by unfold State.Ready; decide

/-- A state in the middle of an EXEC, just accepted. -/
def busy : State := acceptExec 0x0C [0x26] State.reset

theorem wit_DecodeOfEncodedRequest :
    (Instr.execTransceive (List.replicate 255 0)).isRequest = true ∧
    (Instr.execTransceive (List.replicate 255 0)).wellFormed Cfg.default = true ∧
    (Instr.execOther 0xFF []).isRequest = true ∧ (Instr.execOther 0xFF []).wellFormed Cfg.default = true := by decide +kernel

theorem wit_DecodeOfEncodedBusAccess :
    (Instr.busWr 63 0xFF).isRequest = false ∧ (Instr.busRd 0).isRequest = false := by decide

theorem wit_EncodeOfDecoded :
    decodeRequest Cfg.default [0x01, 0x00, 0x00, 0x55] = .instr (.crc []) [0x55] ∧
    decodeBus [0xFE, 0x55] = .instr (.busRd 63) [0x55] := by decide

theorem wit_RowsFollowMaskAndMatch :
    ([] : List Byte).length = (0x00 : Byte).toNat ∧ (List.replicate 255 (0 : Byte)).length = (0xFF : Byte).toNat ∧
    (0x7E : Byte) &&& 0x81 = 0x00 ∧ (0xFE : Byte) &&& 0x81 = 0x80 := by decide +kernel

theorem wit_AddressBytesBitByBit : (0x49 : Byte).extractLsb' 0 6 = (0x09 : Byte).extractLsb' 0 6 := by decide

theorem wit_ResponseFramesLayout : (List.replicate 16 (0 : Byte)).length ≤ 16 := by decide

theorem wit_AssemblerReadsRequestLines :
    (Instr.crc [0x30]).wellFormed Cfg.default = true ∧
    requestText (.crc [0x30]) = some ['C', 'R', 'C', ' ', '3', '0'] := by decide

theorem wit_ResetInAnyPhase :
    ({ busy with resetIn := some 0 } : State).cfg.legal = true ∧ ({ busy with resetIn := some 0 } : State).resetIn = some 0 := by
  decide

theorem wit_ResetAbandonsTheRequest_in_progress :
    busy.cfg.legal = true ∧ ({ busy with resetIn := some 0 } : State).resetIn = some 0 ∧
    (phaseStep^[0] { busy with resetIn := some 0 }).phase ≠ .idle ∧
    (phaseStep^[3] { busy with resetIn := some 3 }).phase ≠ .idle := by decide

theorem wit_ResetAbandonsTheRequest_accepted :
    (Instr.crc []).isRequest = true ∧ ({ State.reset with resetIn := some 1 } : State).phase = .idle ∧
    ({ State.reset with resetIn := some 1 } : State).resetIn = some (0 + 1) ∧
    (phaseStep^[0] (acceptCrc [] { State.reset with resetIn := some 1 })).phase ≠ .idle ∧
    (Instr.execIdle []).isExec = true ∧
    (phaseStep^[5] (acceptExec (commandOf Cfg.default (.execIdle [])) [] { State.reset with resetIn := some 6 })).phase
      ≠ .idle := by decide

theorem wit_StepRunsDecodedInstruction :
    State.reset.cfg.legal = true ∧ State.reset.resetIn ≠ some 0 ∧ State.reset.phase = .idle ∧
    (presented [0x00, 0x00, 0x00] []).inbox = .request [0x00, 0x00, 0x00] :: [] ∧
    decodeRequest Cfg.default [0x00, 0x00, 0x00] = .instr (.execIdle []) [] ∧
    decodeBus [0x80] = .instr (.busRd 0) [] := by decide

theorem wit_FetchWordRunsItsInstruction :
    State.reset.cfg = Cfg.default ∧ decodeTableWord 24 0x010000 = some (.crc []) ∧
    decodeTableWord 8 0xFE = some (.busRd 63) := by decide

theorem wit_IllegalFrameIsRejected :
    (presented [0x02, 0, 0] []).Ready ∧ ([] : List Byte).length = (0 : Byte).toNat ∧
    (presented [0x02, 0, 0] []).inbox = .request (0x02 :: 0 :: 0 :: ([] ++ [])) :: [] ∧
    (0x02 : Byte) ≠ 0x00 ∧ (0x02 : Byte) ≠ 0x01 ∧ (0x01 : Byte) = 0x01 ∧ (0x01 : Byte) ≠ 0x00 := by
  unfold State.Ready; decide

theorem wit_NothingPresentedNothingHappens :
    State.reset.Ready ∧ State.reset.inbox = [] ∧ (presented [0x00, 0x0C] []).Ready ∧ [0x00, (0x0C : Byte)].length < 3 ∧
    ([] : List Byte).length < (0x01 : Byte).toNat ∧
    (presented [0x00, 0x0C, 0x01] []).inbox = .request (0x00 :: 0x0C :: 0x01 :: []) :: [] := by
  unfold State.Ready; decide

theorem wit_ReservedAddressByteIsRefused :
    ({ State.reset with inbox := [.access [0x01]] } : State).Ready ∧ (0x01 : Byte).getLsbD 0 = true := by
  unfold State.Ready; decide

theorem wit_RequestWaitsWhileBusy :
    busy.cfg.legal = true ∧ busy.resetIn = none ∧ busy.phase ≠ .idle ∧ (Instr.crc []).isRequest = true := by decide

/-- Every phase premise (`s.phase = p`) can be met. -/
theorem wit_each_phase : ∀ p : Phase, (goto p State.reset).phase = p := fun _ => rfl

theorem wit_AcceptanceLatchesTheRequest :
    State.reset.cfg.legal = true ∧ (List.replicate 255 (0 : Byte)).length ≤ 255 ∧
    plainCommand Cfg.default Cfg.default.cmdIdle ∧ plainCommand Cfg.default 0x04 := by
  unfold plainCommand; decide +kernel

theorem wit_ErrorReadSetsStatus :
    answer { State.reset with answers := [0x08] } &&& State.reset.cfg.errMask ≠ 0 ∧
    answer { State.reset with answers := [0xE4] } &&& State.reset.cfg.errMask = 0 := by decide

/-- The five clauses of the last-bits read, at the levels where they meet: 0, MAX_LEN and MAX_LEN + 1. -/
theorem wit_LengthReads :
    (0 : Byte) = 0 ∧ (17 : Byte).toNat > Cfg.default.maxLen.toNat ∧ (16 : Byte) ≠ 0 ∧
    (16 : Byte).toNat ≤ Cfg.default.maxLen.toNat ∧ validBitsOf 0 0x04 ≠ 0 ∧ validBitsOf 0 0xF8 = 0 := by decide

theorem wit_OneByteLoadedOrDrained :
    ({ busy with phase := .xLoad } : State).idx.toNat < busy.len.toNat ∧
    ({ busy with phase := .xDrain, idx := 15, dcnt := 16 } : State).idx.toNat < (16 : BitVec 5).toNat ∧
    (16 : BitVec 5).toNat ≤ 16 := by decide

/-- Both branches of X_CMD_WR. -/
theorem wit_PlainPhases : busy.cmd = busy.cfg.cmdTransceive ∧ State.reset.cmd ≠ State.reset.cfg.cmdTransceive := by decide

/-- The hypotheses of the statements about every EXEC and about CRC, at the longest data. -/
theorem wit_operations :
    State.reset.Ready ∧ (Instr.execTransceive (List.replicate 255 0)).isExec = true ∧
    (Instr.execTransceive (List.replicate 255 0)).data.length ≤ 255 ∧ (Instr.execOther 0x04 []).isExec = true ∧
    (Instr.execOther 0x04 []).data.length ≤ 255 := by
  unfold State.Ready; decide +kernel

/-- The rows of the cause table that the clauses of StatusFollowsCauseTable (and of the result statements) speak of, met
by runs: exhausted, chip error, NoTagError, Ok; vectors V2c, V4, V3, V1. -/
theorem wit_StatusFollowsCauseTable :
    nextIs (exec (.execTransceive [0x26]) { State.reset with
      cfg := { Cfg.default with pollBudget := 3 }, answers := [0, 0, 7, 0x44, 0x44, 0x64, 0x87] })
      (fun t => t.cnt == 0) = true ∧
    nextIs (exec (.execTransceive [0x93, 0x20]) { State.reset with answers := [0, 0, 0, 0x64, 0x80, 8] })
      (fun t => t.cnt != 0 && t.err &&& 0x1B != 0) = true ∧
    nextIs (exec (.execTransceive [0x26]) { State.reset with answers := [0, 0, 7, 0x44, 0x45, 0x87, 0, 0, 0, 0] })
      (fun t => t.cnt != 0 && t.err &&& 0x1B == 0 && t.nirq &&& t.ien &&& 1 != 0) = true ∧
    nextIs (exec (.execTransceive [0x26]) { State.reset with answers := [0, 0, 7, 0x64, 0x87, 0, 2, 0, 4, 0] })
      (fun t => t.cnt != 0 && t.err &&& 0x1B == 0 && t.nirq &&& t.ien &&& 1 == 0) = true := by decide +kernel

/-- The Authenticate mask and the timer bit of the default CFG (R7; log 2), and the masks of Transceive. -/
theorem wit_AuthentResult_TransceiveResult :
    Cfg.default.ienAuth &&& Cfg.default.irqTimer = 0 ∧
    Cfg.default.ienTrx &&& Cfg.default.irqTimer = Cfg.default.irqTimer := by decide

/-- The budgets of R7 that the two upper bounds are for. -/
theorem wit_transaction_bounds : State.reset.cfg.pollBudget = 2000 ∧ State.reset.cfg.crcBudget = 255 := by decide

theorem wit_OtherCommandsResult :
    plainCommand Cfg.default (commandOf Cfg.default (.execSoftReset [])) ∧ Cfg.default.ienOther = 0 := by
  unfold plainCommand; decide

theorem wit_RowsDifferOnlyInTwoCommands : plainCommand Cfg.default 0x00 ∧ plainCommand Cfg.default 0xFF := by
  unfold plainCommand; decide

/-- Level 17 (the first truncated one) and level 16. -/
theorem wit_TruncationShowsInBitLength :
    nextIs (exec (.execTransceive []) { State.reset with answers := [0, 0, 7, 0x64, 0x87, 0, 17, 1] ++ List.replicate 16 0 })
      (fun t => t.status != 2 && t.lvl == 17 && t.bitLen == 129) = true ∧
    nextIs (exec (.execTransceive []) { State.reset with answers := [0, 0, 7, 0x64, 0x87, 0, 16, 0] ++ List.replicate 16 0 })
      (fun t => t.status != 2 && t.lvl == 16 && t.bitLen == 128) = true := by decide +kernel

theorem wit_BusReadResult :
    ({ State.reset with answers := [0x64] } : State).answers = 0x64 :: [] ∧ State.reset.answers = [] := by decide

theorem wit_OnlyConfiguredRegisters : (Instr.crc []).isRequest = true ∧ busy.cfg.legal = true := by decide

theorem wit_CfgNeverChanges : step State.reset = .next (tick State.reset) :=
  step_settle ((fetch_idle (by decide) (by decide) rfl).trans (fetchIdle_nil rfl))

/-- Two ready states that differ in what an earlier request left. -/
theorem wit_OutcomeDependsOnRequestCfgAnswers :
    (Instr.crc []).isRequest = true ∧ State.reset.Ready ∧ ({ State.reset with crcL := 0x63, status := 0, olen := 3 } : State).Ready ∧
    State.reset ≠ { State.reset with crcL := 0x63, status := 0, olen := 3 } := by
  unfold State.Ready; decide +kernel

/-- A state in the middle of a request meets the invariant. -/
theorem wit_EngineStepKeepsInvariant : busy.Inv ∧ busy.phase ≠ .idle :=
  ⟨⟨by decide, by decide, by decide, by decide, by decide, by decide, by decide,
    ⟨⟨rfl, ⟨rfl, rfl⟩, rfl, rfl, rfl, rfl⟩, rfl⟩, fun _ h => absurd h List.not_mem_nil⟩, by decide⟩

theorem wit_StepKeepsInvariant : busy.Inv ∧ ∃ t, step busy = .next t :=
  ⟨wit_EngineStepKeepsInvariant.1, _, step_settle (fetch_busy (by decide) (by decide) (by decide))⟩

end Sys2Proof.Tests
end

section
/-! PROOFS. The legality of a CFG, what the block refuses, and the meaning of BUS.RD (O10, O44). -/

namespace Sys2Proof.Machine

variable {s : State}

/-! ## BUS.RD -/

/-- A six-bit address survives its widening to a byte (R51). -/
@[simp] theorem busAddr_setWidth (a : BusAddr) : busAddr (a.setWidth 8) = a := by
  rw [busAddr, BitVec.extractLsb'_setWidth_of_le (by decide), BitVec.extractLsb'_eq_self]

/-- Settles O44: the meaning of BUS.RD is `busRead`, at the address that survives the widening. -/
theorem busReadResult : Obligations.BusReadResult := by
  intro a s
  refine ⟨?_, rfl, fun _ _ => answer_cons, answer_nil⟩
  rw [exec_busRd, busRead, busAddr_setWidth]

/-! ## Legality and the refusal of an illegal CFG -/

/-- The test of `Cfg.legal` that a register is not reserved, in the terms of R51 and R55. -/
theorem notReservedTest_iff (c : Cfg) (a : Byte) :
    (!c.reserved.contains (a.extractLsb' 0 6)) = true ↔ busAddr a ∉ c.reserved := by
  simp [busAddr]

/-- A register is not 0 exactly when it is at least 1, and its width bounds it above (R9 (a)). -/
theorem budget_ne_zero_iff (b : BitVec 16) : b ≠ 0 ↔ 1 ≤ b.toNat ∧ b.toNat ≤ 65535 := by
  have := b.isLt
  rw [Ne, cnt_eq_zero]
  omega

/-- `Cfg.legal` is the clauses (a) to (g) of R9. -/
theorem legal_iff (c : Cfg) : c.legal = true ↔
    (1 ≤ c.pollBudget.toNat ∧ c.pollBudget.toNat ≤ 65535 ∧ 1 ≤ c.crcBudget.toNat ∧ c.crcBudget.toNat ≤ 65535) ∧
    (1 ≤ c.maxLen.toNat ∧ c.maxLen.toNat ≤ 16) ∧
    (∀ a ∈ c.registers, a.toNat ≤ 63 ∧ busAddr a ∉ c.reserved) ∧
    c.registers.Pairwise (· ≠ ·) ∧
    c.cmdAuthent ≠ c.cmdTransceive ∧
    (c.irqTimer ≠ 0 ∧ c.startSend ≠ 0 ∧ c.fifoFlush ≠ 0 ∧ c.crcDone ≠ 0 ∧ c.lastBitsLsb ≤ 5) ∧
    (c.stOk ≠ c.stNoTag ∧ c.stOk ≠ c.stErr ∧ c.stNoTag ≠ c.stErr) := by
  simp only [Cfg.legal, List.all_cons, List.all_nil, id, Bool.and_eq_true, decide_eq_true_eq, and_true,
    List.all_eq_true, notReservedTest_iff, budget_ne_zero_iff]
  simp only [and_assoc, List.Nodup]

/-- Every instruction has a meaning in every state (R13). -/
theorem exec_answers (i : Instr) (s : State) : ∃ t, exec i s = .next t := by
  cases i <;> exact ⟨_, rfl⟩

/-- Only `fetch` refuses: the meanings do not. -/
theorem step_refused_iff {r : Refusal} : step s = .refused r ↔ fetch s = .refuse r := by
  refine ⟨fun h => ?_, step_refuse⟩
  cases hf : fetch s with
  | refuse q => rw [step_refuse hf] at h; cases h; rfl
  | settle t => rw [step_settle hf] at h; cases h
  | run i t =>
    obtain ⟨u, hu⟩ := exec_answers i t
    rw [step_run hf, hu] at h; cases h

/-- What the decoder reads is refused for a reserved bus byte only (R86). -/
theorem dispatchDecoded_refuse {item : List Byte → Inbound} {rest : List Inbound} {d : Decoded} {r : Refusal}
    (h : dispatchDecoded item rest s d = .refuse r) : r = .reservedBusByte := by
  cases d with
  | instr i more => cases h
  | reject q more => cases h
  | reservedByte b more => cases h; rfl
  | incomplete => cases h

/-- In IDLE only a reserved bus byte is refused (R86). -/
theorem fetchIdle_refuse {r : Refusal} (h : fetchIdle s = .refuse r) : r = .reservedBusByte := by
  match hi : s.inbox with
  | [] => rw [fetchIdle_nil hi] at h; cases h
  | .request bytes :: rest => rw [fetchIdle_request hi] at h; exact dispatchDecoded_refuse h
  | .access bytes :: rest => rw [fetchIdle_access hi] at h; exact dispatchDecoded_refuse h

/-- Under a legal CFG the only refusal is that of a reserved bus byte. -/
theorem fetch_refuse_of_legal {r : Refusal} (hl : s.cfg.legal = true) (h : fetch s = .refuse r) :
    r = .reservedBusByte := by
  by_cases hr : s.resetIn = some 0
  · rw [fetch_reset hl hr] at h; cases h
  · by_cases hp : s.phase = .idle
    · rw [fetch_idle hl hr hp] at h; exact fetchIdle_refuse h
    · rw [fetch_busy hl hr hp] at h; cases h

/-- Settles O10: `legal_iff` for the clauses; a legal CFG leaves only the refusal of a reserved bus byte. -/
theorem illegalCfgIsRefused : Obligations.IllegalCfgIsRefused := by
  refine ⟨legal_iff, fun s => ⟨fun h => ?_, fun h => step_refuse (fetch_illegal h)⟩⟩
  rw [← Bool.not_eq_true]
  intro hl
  cases fetch_refuse_of_legal hl (step_refused_iff.1 h)

end Sys2Proof.Machine
end

section
/-! PROOFS. Noninterference: the outcome of a request depends on the request, the CFG and the answers only (O49). -/

namespace Sys2Proof.Machine

/-! ## Two runs side by side (R12, R44, R60)

The runs start in the origins `o₁` and `o₂` and stand in `s₁` and `s₂`. They agree on the request, the CFG and the answers
to come, and have made the same transactions since their origins; of the other registers they agree on those that a
later phase still reads. -/

/-- The two runs have the same `n` first bytes of OUT. -/
def SameOut (n : Nat) (s₁ s₂ : State) : Prop := ∀ k < n, s₁.outBuf[k]? = s₂.outBuf[k]?

/-- What an EXEC response is made of is the same in both runs (R125). -/
def SameResult (s₁ s₂ : State) : Prop :=
  s₂.status = s₁.status ∧ s₂.vb = s₁.vb ∧ s₂.bitLen = s₁.bitLen ∧ s₂.olen = s₁.olen ∧ SameOut s₁.olen.toNat s₁ s₂

/-- The registers that a phase or one of its successors reads before writing them: on these two runs in that phase must
agree, besides what `SameRun` keeps throughout. No request is in progress in IDLE. -/
def SameLive : Phase → State → State → Prop
  | .idle, _, _ => False
  | .xIenWr, s₁, s₂ | .xIrqRd, s₁, s₂ | .xFlushRd, s₁, s₂ | .xIdleWr, s₁, s₂ => SameResult s₁ s₂ ∧ s₁.idx = 0
  | .xIrqWr, s₁, s₂ | .xFlushWr, s₁, s₂ => SameResult s₁ s₂ ∧ s₁.idx = 0 ∧ s₂.t = s₁.t
  | .xLoad, s₁, s₂ => SameResult s₁ s₂ ∧ s₁.idx.toNat < s₁.len.toNat
  | .xCmdWr, s₁, s₂ | .xStartRd, s₁, s₂ | .xLevelRd, s₁, s₂ | .xDone, s₁, s₂ => SameResult s₁ s₂
  | .xStartWr, s₁, s₂ => SameResult s₁ s₂ ∧ s₂.t = s₁.t
  | .xPoll, s₁, s₂ => SameResult s₁ s₂ ∧ s₂.cnt = s₁.cnt
  | .xStopRd, s₁, s₂ => SameResult s₁ s₂ ∧ s₂.cnt = s₁.cnt ∧ s₂.nirq = s₁.nirq
  | .xStopWr, s₁, s₂ => SameResult s₁ s₂ ∧ s₂.cnt = s₁.cnt ∧ s₂.nirq = s₁.nirq ∧ s₂.t = s₁.t
  | .xErrRd, s₁, s₂ => SameResult s₁ s₂ ∧ s₂.nirq = s₁.nirq
  | .xLastRd, s₁, s₂ => SameResult s₁ s₂ ∧ s₂.lvl = s₁.lvl
  | .xDrain, s₁, s₂ => SameResult s₁ s₂ ∧ s₂.dcnt = s₁.dcnt ∧ SameOut s₁.idx.toNat s₁ s₂
  | .cClrRd, s₁, _ | .cFlushRd, s₁, _ => s₁.idx = 0
  | .cClrWr, s₁, s₂ | .cFlushWr, s₁, s₂ => s₁.idx = 0 ∧ s₂.t = s₁.t
  | .cLoad, s₁, _ => s₁.idx.toNat < s₁.len.toNat
  | .cCmdWr, _, _ | .cResL, _, _ => True
  | .cPoll, s₁, s₂ => s₂.cnt = s₁.cnt
  | .cResH, s₁, s₂ => s₂.crcL = s₁.crcL
  | .cDone, s₁, s₂ => s₂.crcL = s₁.crcL ∧ s₂.crcH = s₁.crcH

/-- The two runs have made the same transactions since their origins. -/
def SameTrace (o₁ o₂ s₁ s₂ : State) : Prop :=
  ∃ trace : List Txn, s₁.bus = o₁.bus ++ trace ∧ s₂.bus = o₂.bus ++ trace

/-- What two runs of one request agree on throughout; neither has responded and no reset is scheduled. -/
structure SameRun (o₁ o₂ s₁ s₂ : State) : Prop where
  cfg : s₂.cfg = s₁.cfg
  cmd : s₂.cmd = s₁.cmd
  len : s₂.len = s₁.len
  idx : s₂.idx = s₁.idx
  ien : s₂.ien = s₁.ien
  wait : s₂.wait = s₁.wait
  inBuf : ∀ k < s₁.len.toNat, s₁.inBuf[k]? = s₂.inBuf[k]?
  answers : s₂.answers = s₁.answers
  reads : s₂.reads = s₁.reads
  trace : SameTrace o₁ o₂ s₁ s₂
  responses₁ : s₁.responses = o₁.responses
  responses₂ : s₂.responses = o₂.responses
  resetIn₁ : s₁.resetIn = none
  resetIn₂ : s₂.resetIn = none

/-- Both runs have emitted the same single response since their origins, after the same transactions. -/
def SameOutcome (o₁ o₂ s₁ s₂ : State) : Prop :=
  SameTrace o₁ o₂ s₁ s₂ ∧ ∃ r : Response, s₁.responses = o₁.responses ++ [r] ∧ s₂.responses = o₂.responses ++ [r]

/-- The runs stand in the same phase of the request and agree on all that it still depends on, or both have ended it
with the same outcome. -/
inductive Lockstep (o₁ o₂ s₁ s₂ : State) : Prop where
  | busy (p : Phase) (phase₁ : s₁.phase = p) (phase₂ : s₂.phase = p) (run : SameRun o₁ o₂ s₁ s₂)
      (live : SameLive p s₁ s₂)
  | ended (phase₁ : s₁.phase = .idle) (phase₂ : s₂.phase = .idle) (outcome : SameOutcome o₁ o₂ s₁ s₂)

section
variable {o₁ o₂ s₁ s₂ : State}

/-! ### The shared operations keep the agreement -/

theorem SameTrace.snoc {t₁ t₂ : State} (h : SameTrace o₁ o₂ s₁ s₂) (x : Txn) (h₁ : t₁.bus = s₁.bus ++ [x])
    (h₂ : t₂.bus = s₂.bus ++ [x]) : SameTrace o₁ o₂ t₁ t₂ := by
  obtain ⟨trace, b₁, b₂⟩ := h
  exact ⟨trace ++ [x], by rw [h₁, b₁, List.append_assoc], by rw [h₂, b₂, List.append_assoc]⟩

theorem SameRun.answer (h : SameRun o₁ o₂ s₁ s₂) : answer s₂ = answer s₁ := by
  rw [Machine.answer, Machine.answer, h.answers, h.reads]

theorem SameRun.busWrite (h : SameRun o₁ o₂ s₁ s₂) (a v : Byte) :
    SameRun o₁ o₂ (busWrite a v s₁) (busWrite a v s₂) :=
  { h with trace := h.trace.snoc (.write (busAddr a) v) rfl rfl }

theorem SameRun.busRead (h : SameRun o₁ o₂ s₁ s₂) (a : Byte) : SameRun o₁ o₂ (busRead a s₁) (busRead a s₂) :=
  { h with
    answers := congrArg List.tail h.answers
    reads := congrArg (· + 1) h.reads
    trace := h.trace.snoc (.read (busAddr a) (Machine.answer s₁)) rfl (by rw [busRead_bus, h.answer]) }

/-- The two runs read the same input byte, below LEN. -/
theorem SameRun.inByte (h : SameRun o₁ o₂ s₁ s₂) (hi : s₁.idx.toNat < s₁.len.toNat) : inByte s₂ = inByte s₁ := by
  rw [Machine.inByte, Machine.inByte, h.idx, h.inBuf _ hi]

theorem SameRun.loadByte (h : SameRun o₁ o₂ s₁ s₂) (hi : s₁.idx.toNat < s₁.len.toNat) :
    SameRun o₁ o₂ (loadByte s₁) (loadByte s₂) :=
  { h with
    idx := congrArg (· + 1) h.idx
    trace := h.trace.snoc (.write (busAddr s₁.cfg.regFifoData) (Machine.inByte s₁)) rfl
      (by rw [loadByte_bus, h.cfg, h.inByte hi]) }

theorem SameRun.readToT (h : SameRun o₁ o₂ s₁ s₂) (a : Byte) : SameRun o₁ o₂ (readToT a s₁) (readToT a s₂) :=
  { h.busRead a with }

theorem SameRun.pollOnce (h : SameRun o₁ o₂ s₁ s₂) (a : Byte) : SameRun o₁ o₂ (pollOnce a s₁) (pollOnce a s₂) :=
  { h.busRead a with }

theorem SameRun.loadCnt (h : SameRun o₁ o₂ s₁ s₂) (b : BitVec 16) : SameRun o₁ o₂ (loadCnt b s₁) (loadCnt b s₂) :=
  { h with }

theorem SameRun.setStatus (h : SameRun o₁ o₂ s₁ s₂) (st st' : BitVec 2) :
    SameRun o₁ o₂ (setStatus st s₁) (setStatus st' s₂) :=
  { h with }

theorem SameRun.readErr (h : SameRun o₁ o₂ s₁ s₂) : SameRun o₁ o₂ (readErr s₁) (readErr s₂) := by
  rw [Machine.readErr, Machine.readErr, h.cfg]
  exact { h.busRead _ with }

theorem SameRun.readLevel (h : SameRun o₁ o₂ s₁ s₂) : SameRun o₁ o₂ (readLevel s₁) (readLevel s₂) := by
  rw [Machine.readLevel, Machine.readLevel, h.cfg]
  exact { h.busRead _ with }

theorem SameRun.readLast (h : SameRun o₁ o₂ s₁ s₂) : SameRun o₁ o₂ (readLast s₁) (readLast s₂) := by
  rw [Machine.readLast, Machine.readLast, h.cfg]
  exact { h.busRead _ with idx := rfl }

theorem SameRun.drainByte (h : SameRun o₁ o₂ s₁ s₂) : SameRun o₁ o₂ (drainByte s₁) (drainByte s₂) := by
  rw [Machine.drainByte, Machine.drainByte, h.cfg]
  exact { h.busRead _ with idx := congrArg (· + 1) h.idx }

theorem SameRun.readCrcL (h : SameRun o₁ o₂ s₁ s₂) : SameRun o₁ o₂ (readCrcL s₁) (readCrcL s₂) := by
  rw [Machine.readCrcL, Machine.readCrcL, h.cfg]
  exact { h.busRead _ with }

theorem SameRun.readCrcH (h : SameRun o₁ o₂ s₁ s₂) : SameRun o₁ o₂ (readCrcH s₁) (readCrcH s₂) := by
  rw [Machine.readCrcH, Machine.readCrcH, h.cfg]
  exact { h.busRead _ with }

/-! ### The branch conditions (R41) agree -/

theorem SameRun.moreToLoad (h : SameRun o₁ o₂ s₁ s₂) : moreToLoad s₂ = moreToLoad s₁ := by
  rw [Machine.moreToLoad, Machine.moreToLoad, h.idx, h.len]

theorem SameRun.moreToDrain (h : SameRun o₁ o₂ s₁ s₂) (hd : s₂.dcnt = s₁.dcnt) : moreToDrain s₂ = moreToDrain s₁ := by
  rw [Machine.moreToDrain, Machine.moreToDrain, h.idx, hd]

theorem SameRun.isTransceive (h : SameRun o₁ o₂ s₁ s₂) : isTransceive s₂ = isTransceive s₁ := by
  rw [Machine.isTransceive, Machine.isTransceive, h.cmd, h.cfg]

theorem exhausted_congr (hc : s₂.cnt = s₁.cnt) : exhausted s₂ = exhausted s₁ := by
  rw [exhausted, exhausted, hc]

theorem SameRun.pollExit (h : SameRun o₁ o₂ s₁ s₂) (hc : s₂.cnt = s₁.cnt) (hn : s₂.nirq = s₁.nirq) :
    pollExit s₂ = pollExit s₁ := by
  simp only [Machine.pollExit, exhausted, timerSeen, waitSeen, hc, hn, h.cfg, h.wait]

theorem SameRun.crcPollExit (h : SameRun o₁ o₂ s₁ s₂) (hc : s₂.cnt = s₁.cnt) (hn : s₂.nirq = s₁.nirq) :
    crcPollExit s₂ = crcPollExit s₁ := by
  simp only [Machine.crcPollExit, exhausted, crcDoneSeen, hc, hn, h.cfg]

theorem SameRun.chipError (h : SameRun o₁ o₂ s₁ s₂) (he : s₂.err = s₁.err) : chipError s₂ = chipError s₁ := by
  rw [Machine.chipError, Machine.chipError, he, h.cfg]

theorem SameRun.noTagSeen (h : SameRun o₁ o₂ s₁ s₂) (hn : s₂.nirq = s₁.nirq) : noTagSeen s₂ = noTagSeen s₁ := by
  simp only [Machine.noTagSeen, hn, h.ien, h.cfg]

theorem SameRun.statusAfterErr (h : SameRun o₁ o₂ s₁ s₂) (he : s₂.err = s₁.err) (hn : s₂.nirq = s₁.nirq)
    (hs : s₂.status = s₁.status) : statusAfterErr s₂ = statusAfterErr s₁ := by
  simp only [Machine.statusAfterErr, h.chipError he, h.noTagSeen hn, h.cfg, hs]

/-! ### OUT -/

theorem SameOut.mono {m n : Nat} (h : SameOut n s₁ s₂) (hm : m ≤ n) : SameOut m s₁ s₂ :=
  fun k hk => h k (Nat.lt_of_lt_of_le hk hm)

/-- One pass of the drain loop makes the runs agree on one byte more. -/
theorem SameOut.drainByte (h : SameOut s₁.idx.toNat s₁ s₂) (run : SameRun o₁ o₂ s₁ s₂) :
    SameOut (s₁.idx.toNat + 1) (drainByte s₁) (drainByte s₂) := by
  intro k hk
  rw [drainByte_outBuf, drainByte_outBuf, run.idx, run.answer, Vector.getElem?_setIfInBounds,
    Vector.getElem?_setIfInBounds]
  split
  · rfl
  · exact h k (by omega)

theorem SameOut.payload (h : SameOut s₁.olen.toNat s₁ s₂) (ho : s₂.olen = s₁.olen) : payload s₂ = payload s₁ := by
  rw [Machine.payload, Machine.payload, ho]
  refine List.ext_getElem? fun k => ?_
  rw [List.getElem?_take, List.getElem?_take]
  split
  · simpa using (h k ‹_›).symm
  · rfl

/-! ### Every phase keeps the lockstep -/

@[simp] theorem sameLive_goto (p q : Phase) : SameLive p (goto q s₁) (goto q s₂) = SameLive p s₁ s₂ := by
  cases p <;> rfl

theorem Lockstep.goto {p : Phase} (run : SameRun o₁ o₂ s₁ s₂) (live : SameLive p s₁ s₂) :
    Lockstep o₁ o₂ (goto p s₁) (goto p s₂) :=
  .busy p rfl rfl { run with } (by rwa [sameLive_goto])

theorem Lockstep.branch {c : Prop} [Decidable c] {p q : Phase} (run : SameRun o₁ o₂ s₁ s₂)
    (hp : c → SameLive p s₁ s₂) (hq : ¬c → SameLive q s₁ s₂) :
    Lockstep o₁ o₂ (Machine.goto (if c then p else q) s₁) (Machine.goto (if c then p else q) s₂) := by
  split
  · exact .goto run (hp ‹_›)
  · exact .goto run (hq ‹_›)

theorem Lockstep.respond {r : Response} (run : SameRun o₁ o₂ s₁ s₂) :
    Lockstep o₁ o₂ (respond r s₁) (respond r s₂) :=
  .ended rfl rfl ⟨run.trace, r, by rw [respond_responses, run.responses₁], by rw [respond_responses, run.responses₂]⟩

/-- The index of a request that has data and has loaded none is below LEN. -/
theorem idx_lt_len {s : State} (hl : s.len ≠ 0) (hi : s.idx = 0) : s.idx.toNat < s.len.toNat := by
  rw [hi]
  exact Nat.pos_of_ne_zero fun h => hl (BitVec.eq_of_toNat_eq h)

theorem lockstep_xCmdWr (run : SameRun o₁ o₂ s₁ s₂) (live : SameLive .xCmdWr s₁ s₂) :
    Lockstep o₁ o₂ (phaseXCmdWr s₁) (phaseXCmdWr s₂) := by
  simp only [phaseXCmdWr, run.cfg, run.cmd, run.isTransceive]
  split
  · exact .goto (run.busWrite _ _) live
  · exact .goto ((run.busWrite _ _).loadCnt _) ⟨live, rfl⟩

theorem lockstep_xErrRd (run : SameRun o₁ o₂ s₁ s₂) (live : SameLive .xErrRd s₁ s₂) :
    Lockstep o₁ o₂ (phaseXErrRd s₁) (phaseXErrRd s₂) := by
  obtain ⟨⟨hs, hv, hb, ho, hout⟩, hn⟩ := live
  have he : (readErr s₂).err = (readErr s₁).err := run.answer
  simp only [phaseXErrRd, run.readErr.chipError he, run.readErr.isTransceive, run.readErr.statusAfterErr he hn hs]
  have result : SameResult (setStatus (statusAfterErr (readErr s₁)) (readErr s₁))
      (setStatus (statusAfterErr (readErr s₁)) (readErr s₂)) := ⟨rfl, hv, hb, ho, hout⟩
  have run' := run.readErr.setStatus (statusAfterErr (readErr s₁)) (statusAfterErr (readErr s₁))
  split
  · exact .goto run' result
  · exact .branch run' (fun _ => result) (fun _ => result)

theorem lockstep_xLastRd (run : SameRun o₁ o₂ s₁ s₂) (live : SameLive .xLastRd s₁ s₂) :
    Lockstep o₁ o₂ (phaseXLastRd s₁) (phaseXLastRd s₂) := by
  obtain ⟨⟨hs, _, _, ho, hout⟩, hl⟩ := live
  have hvb : (readLast s₂).vb = (readLast s₁).vb := by simp [run.cfg, run.answer]
  have hbit : (readLast s₂).bitLen = (readLast s₁).bitLen := by simp [run.cfg, run.answer, hl]
  have hdcnt : (readLast s₂).dcnt = (readLast s₁).dcnt := by simp [run.cfg, hl]
  exact .goto run.readLast ⟨⟨hs, hvb, hbit, ho, hout⟩, hdcnt, fun _ hk => absurd hk (Nat.not_lt_zero _)⟩

/-- The runs agree on OUT up to the byte just drained, and neither OLEN nor IDX goes beyond it. -/
theorem lockstep_xDrain (run : SameRun o₁ o₂ s₁ s₂) (live : SameLive .xDrain s₁ s₂) :
    Lockstep o₁ o₂ (phaseXDrain s₁) (phaseXDrain s₂) := by
  obtain ⟨⟨hs, hv, hb, _, _⟩, hd, hout⟩ := live
  have hout' := hout.drainByte run
  have holen : (drainByte s₂).olen = (drainByte s₁).olen := by simp [run.idx]
  have holen_le : (drainByte s₁).olen.toNat ≤ s₁.idx.toNat + 1 := by
    simp [BitVec.toNat_add]; omega
  have hidx_le : (drainByte s₁).idx.toNat ≤ s₁.idx.toNat + 1 := by
    simp [BitVec.toNat_add]; omega
  have result : SameResult (drainByte s₁) (drainByte s₂) := ⟨hs, hv, hb, holen, hout'.mono holen_le⟩
  simp only [phaseXDrain, run.drainByte.moreToDrain hd]
  exact .branch run.drainByte (fun _ => ⟨result, hd, hout'.mono hidx_le⟩) (fun _ => result)

/-- A step of the phase keeps two runs in lockstep: the values it writes to the bus, the registers that stay live and the
branch it takes come from what the runs agree on. -/
theorem lockstep_phaseStep (h : Lockstep o₁ o₂ s₁ s₂) (hb : s₁.phase ≠ .idle) :
    Lockstep o₁ o₂ (phaseStep s₁) (phaseStep s₂) := by
  cases h with
  | ended phase₁ => exact absurd phase₁ hb
  | busy p phase₁ phase₂ run live =>
    simp only [phaseStep, phase₁, phase₂]
    cases p with
    | idle => exact absurd phase₁ hb
    | xIenWr =>
      simp only [phaseXIenWr, run.cfg, run.ien]
      exact .goto (run.busWrite _ _) live
    | xIrqRd =>
      obtain ⟨result, hi⟩ := live
      simp only [phaseXIrqRd, run.cfg]
      exact .goto (run.readToT _) ⟨result, hi, run.answer⟩
    | xIrqWr =>
      obtain ⟨result, hi, ht⟩ := live
      simp only [phaseXIrqWr, run.cfg, ht]
      exact .goto (run.busWrite _ _) ⟨result, hi⟩
    | xFlushRd =>
      obtain ⟨result, hi⟩ := live
      simp only [phaseXFlushRd, run.cfg]
      exact .goto (run.readToT _) ⟨result, hi, run.answer⟩
    | xFlushWr =>
      obtain ⟨result, hi, ht⟩ := live
      simp only [phaseXFlushWr, run.cfg, ht]
      exact .goto (run.busWrite _ _) ⟨result, hi⟩
    | xIdleWr =>
      obtain ⟨result, hi⟩ := live
      simp only [phaseXIdleWr, run.cfg, run.len]
      exact .branch (run.busWrite _ _) (fun hl => ⟨result, idx_lt_len hl hi⟩) (fun _ => result)
    | xLoad =>
      obtain ⟨result, hi⟩ := live
      have run' := run.loadByte hi
      simp only [phaseXLoad, run'.moreToLoad]
      exact .branch run' (fun hm => ⟨result, moreToLoad_iff.1 hm⟩) (fun _ => result)
    | xCmdWr => exact lockstep_xCmdWr run live
    | xStartRd =>
      simp only [phaseXStartRd, run.cfg]
      exact .goto (run.readToT _) ⟨live, run.answer⟩
    | xStartWr =>
      obtain ⟨result, ht⟩ := live
      simp only [phaseXStartWr, run.cfg, ht]
      exact .goto ((run.busWrite _ _).loadCnt _) ⟨result, rfl⟩
    | xPoll =>
      obtain ⟨result, hc⟩ := live
      have hc' : s₂.cnt - 1 = s₁.cnt - 1 := congrArg (· - 1) hc
      simp only [phaseXPoll, run.cfg, (run.pollOnce _).pollExit hc' run.answer]
      exact .branch (run.pollOnce _) (fun _ => ⟨result, hc', run.answer⟩) (fun _ => ⟨result, hc'⟩)
    | xStopRd =>
      obtain ⟨result, hc, hn⟩ := live
      simp only [phaseXStopRd, run.cfg]
      exact .goto (run.readToT _) ⟨result, hc, hn, run.answer⟩
    | xStopWr =>
      obtain ⟨result, hc, hn, ht⟩ := live
      simp only [phaseXStopWr, run.cfg, ht, exhausted_congr hc]
      exact .branch (run.busWrite _ _) (fun _ => result) (fun _ => ⟨result, hn⟩)
    | xErrRd => exact lockstep_xErrRd run live
    | xLevelRd => exact .goto run.readLevel ⟨live, run.answer⟩
    | xLastRd => exact lockstep_xLastRd run live
    | xDrain => exact lockstep_xDrain run live
    | xDone =>
      obtain ⟨hs, hv, hb, ho, hout⟩ := live
      simp only [phaseXDone, hs, hv, hb, hout.payload ho]
      exact .respond run
    | cClrRd =>
      simp only [phaseCClrRd, run.cfg]
      exact .goto (run.readToT _) ⟨live, run.answer⟩
    | cClrWr =>
      obtain ⟨hi, ht⟩ := live
      simp only [phaseCClrWr, run.cfg, ht]
      exact .goto (run.busWrite _ _) hi
    | cFlushRd =>
      simp only [phaseCFlushRd, run.cfg]
      exact .goto (run.readToT _) ⟨live, run.answer⟩
    | cFlushWr =>
      obtain ⟨hi, ht⟩ := live
      simp only [phaseCFlushWr, run.cfg, run.len, ht]
      exact .branch (run.busWrite _ _) (fun hl => idx_lt_len hl hi) (fun _ => trivial)
    | cLoad =>
      have run' := run.loadByte live
      simp only [phaseCLoad, run'.moreToLoad]
      exact .branch run' (fun hm => moreToLoad_iff.1 hm) (fun _ => trivial)
    | cCmdWr =>
      simp only [phaseCCmdWr, run.cfg]
      exact .goto ((run.busWrite _ _).loadCnt _) rfl
    | cPoll =>
      have hc : s₂.cnt - 1 = s₁.cnt - 1 := congrArg (· - 1) live
      simp only [phaseCPoll, run.cfg, (run.pollOnce _).crcPollExit hc run.answer]
      exact .branch (run.pollOnce _) (fun _ => trivial) (fun _ => hc)
    | cResL => exact .goto run.readCrcL run.answer
    | cResH => exact .goto run.readCrcH ⟨live, run.answer⟩
    | cDone =>
      obtain ⟨hl, hh⟩ := live
      simp only [phaseCDone, hl, hh]
      exact .respond run

/-! ### The whole request -/

/-- Runs in lockstep end with the same outcome: induction along the first run. -/
theorem Lockstep.outcome (h : Lockstep o₁ o₂ s₁ s₂) : SameOutcome o₁ o₂ (finishRequest s₁) (finishRequest s₂) := by
  induction s₁ using run_induction generalizing s₂ with
  | idle s₁ hp =>
    cases h with
    | busy p phase₁ _ _ live => cases phase₁.symm.trans hp; exact live.elim
    | ended _ phase₂ outcome => rwa [finishRequest_idle hp, finishRequest_idle phase₂]
  | busy s₁ hp ih =>
    have next := lockstep_phaseStep h hp
    cases h with
    | ended phase₁ => exact absurd phase₁ hp
    | busy p phase₁ phase₂ run _ =>
      rw [finishRequest_busy hp, finishRequest_step (phase₂.trans phase₁.symm ▸ hp) run.resetIn₂]
      exact ih (by rwa [engineStep_of_none run.resetIn₁])

/-- Loading a request makes IN the same below LEN, whatever it held. -/
theorem loadFrom_agree (v w : Vector Byte 255) (data : List Byte) :
    ∀ k < (BitVec.ofNat 8 data.length).toNat, (loadFrom v 0 data)[k]? = (loadFrom w 0 data)[k]? := by
  intro k hk
  have hmod : (BitVec.ofNat 8 data.length).toNat = data.length % 256 := BitVec.toNat_ofNat ..
  have hloaded : 0 ≤ k ∧ k < 0 + data.length ∧ k < 255 := by omega
  rw [getElem?_loadFrom, getElem?_loadFrom, if_pos hloaded, if_pos hloaded]

section
variable (hr₁ : s₁.resetIn = none) (hr₂ : s₂.resetIn = none) (hcfg : s₁.cfg = s₂.cfg)
  (hans : s₁.answers = s₂.answers) (hreads : s₁.reads = s₂.reads) (data : List Byte)
include hr₁ hr₂ hcfg hans hreads

theorem lockstep_acceptExec (cmd : Byte) : Lockstep s₁ s₂ (acceptExec cmd data s₁) (acceptExec cmd data s₂) :=
  .busy .xIenWr rfl rfl
    { cfg := hcfg.symm, cmd := rfl, len := rfl, idx := rfl
      ien := by simp [hcfg]
      wait := by simp [hcfg]
      inBuf := loadFrom_agree _ _ data
      answers := hans.symm, reads := hreads.symm, trace := ⟨[], by simp, by simp⟩
      responses₁ := rfl, responses₂ := rfl, resetIn₁ := hr₁, resetIn₂ := hr₂ }
    ⟨⟨by simp [hcfg], rfl, rfl, rfl, fun _ hk => absurd hk (Nat.not_lt_zero _)⟩, rfl⟩

theorem lockstep_acceptCrc : Lockstep s₁ s₂ (acceptCrc data s₁) (acceptCrc data s₂) :=
  .busy .cClrRd rfl rfl
    { cfg := hcfg.symm, cmd := by simp [hcfg], len := rfl, idx := rfl, ien := rfl, wait := rfl
      inBuf := loadFrom_agree _ _ data
      answers := hans.symm, reads := hreads.symm, trace := ⟨[], by simp, by simp⟩
      responses₁ := rfl, responses₂ := rfl, resetIn₁ := hr₁, resetIn₂ := hr₂ }
    rfl

end
end

/-- The request in the state that its acceptance leaves (R104, R135). -/
def acceptRequest (i : Instr) (s : State) : State :=
  if i.isExec then acceptExec (commandOf s.cfg i) i.data s else acceptCrc i.data s

theorem State.Ready.resetIn {s : State} (h : s.Ready) : s.resetIn = none := h.2.1

/-- In a ready state a request is its acceptance and the run that follows. -/
theorem exec_request {i : Instr} {s : State} (hi : i.isRequest = true) (h : s.Ready) :
    exec i s = .next (finishRequest (acceptRequest i s)) := by
  obtain ⟨hp, hr, _⟩ := h
  have hw := whenIdle_of_idle hp hr
  cases i with
  | busWr a v => cases hi
  | busRd a => cases hi
  | crc d => rw [exec_crc, runCrc, hw]; rfl
  | execIdle d => rw [exec_execIdle, runExec, hw]; rfl
  | execCalcCrc d => rw [exec_execCalcCrc, runExec, hw]; rfl
  | execTransceive d => rw [exec_execTransceive, runExec, hw]; rfl
  | execAuthent d => rw [exec_execAuthent, runExec, hw]; rfl
  | execSoftReset d => rw [exec_execSoftReset, runExec, hw]; rfl
  | execOther cmd d => rw [exec_execOther, runExec, hw]; rfl

/-- Settles O49: the two runs go in lockstep from acceptance, and so end with the same outcome. -/
theorem outcomeDependsOnRequestCfgAnswers : Obligations.OutcomeDependsOnRequestCfgAnswers := by
  intro i s₁ s₂ hi h₁ h₂ hcfg hans hreads
  have start : Lockstep s₁ s₂ (acceptRequest i s₁) (acceptRequest i s₂) := by
    unfold acceptRequest
    rw [hcfg]
    split
    · exact lockstep_acceptExec h₁.resetIn h₂.resetIn hcfg hans hreads _ _
    · exact lockstep_acceptCrc h₁.resetIn h₂.resetIn hcfg hans hreads _
  obtain ⟨⟨trace, bus₁, bus₂⟩, r, responses₁, responses₂⟩ := start.outcome
  exact ⟨_, _, trace, r, exec_request hi h₁, exec_request hi h₂, bus₁, bus₂, responses₁, responses₂⟩

end Sys2Proof.Machine
end

section
/-! PROOFS. The invariant of the engine: kept by every engine step (O50), by every step of the block (O51), met at reset
(O52); and what a step of the block can do, from which CFG is constant (O48). -/

namespace Sys2Proof.Machine

variable {s : State}

/-! ## The two halves of the invariant -/

/-- The half of the invariant that does not depend on the phase. -/
structure State.Ranges (s : State) : Prop where
  legal : s.cfg.legal = true
  mem : s.mem.wf = true
  status : s.status = s.cfg.stOk ∨ s.status = s.cfg.stNoTag ∨ s.status = s.cfg.stErr
  dcnt : s.dcnt.toNat ≤ 16
  olen : s.olen.toNat ≤ 16
  bitLen_ge : (-7 : Int) ≤ s.bitLen.toInt
  bitLen_le : s.bitLen.toInt ≤ 2040
  responses : ∀ r ∈ s.responses, r.InRange s.cfg

theorem inv_iff : s.Inv ↔ s.Ranges ∧ s.phaseInv := by
  constructor
  · rintro ⟨legal, mem, status, dcnt, olen, ge, le, phase, responses⟩
    exact ⟨⟨legal, mem, status, dcnt, olen, ge, le, responses⟩, phase⟩
  · rintro ⟨⟨legal, mem, status, dcnt, olen, ge, le, responses⟩, phase⟩
    exact ⟨legal, mem, status, dcnt, olen, ge, le, phase, responses⟩

theorem State.Inv.ranges (h : s.Inv) : s.Ranges := (inv_iff.1 h).1

/-- In IDLE the ranges are the whole invariant. -/
theorem State.Ranges.inv_of_idle (h : s.Ranges) (hp : s.phase = .idle) : s.Inv :=
  inv_iff.2 ⟨h, by rw [State.phaseInv, hp]; trivial⟩

theorem phaseInv_branch {c : Prop} [Decidable c] {p q : Phase} (hp : c → (goto p s).phaseInv)
    (hq : ¬c → (goto q s).phaseInv) : (goto (if c then p else q) s).phaseInv := by
  split
  · exact hp ‹_›
  · exact hq ‹_›

/-! ## Every phase keeps what holds in each phase -/

/-- A request without data has its index at LEN from the start. -/
theorem idx_eq_len_of_empty (hl : ¬s.len ≠ 0) (hi : s.idx = 0) : s.idx = s.len := by
  rw [hi, Decidable.not_not.1 hl]

/-- A load pass that ends the loop leaves the index at LEN (R110, R138). -/
theorem loadByte_idx_eq_len (hi : s.idx.toNat < s.len.toNat) (hm : ¬moreToLoad (loadByte s) = true) :
    (loadByte s).idx = (loadByte s).len := by
  have hs : (loadByte s).idx.toNat = s.idx.toNat + 1 := idx_succ hi s.len.isLt
  rw [moreToLoad_iff] at hm
  rw [loadByte_len] at *
  exact BitVec.eq_of_toNat_eq (by omega)

/-- A poll leaves the counter below the budget it was loaded with (R113, R114). -/
theorem pollOnce_cnt_lt {a : Byte} {b : Nat} (h : s.cnt ≠ 0) (hb : s.cnt.toNat ≤ b) :
    (pollOnce a s).cnt.toNat < b := by
  have := cnt_pred h
  rw [pollOnce_cnt]
  omega

/-- A level of one byte and three bits more fit into BITLEN (R36, R122). -/
theorem exactBitLen_bounds (lvl : Byte) (vb : BitVec 3) : -7 ≤ exactBitLen lvl vb ∧ exactBitLen lvl vb ≤ 2040 := by
  have hl := lvl.isLt
  have hv := vb.isLt
  unfold exactBitLen
  split
  · rename_i h
    have : vb.toNat ≠ 0 := fun h0 => h (BitVec.eq_of_toNat_eq h0)
    omega
  · omega

theorem bitLenOf_toInt (lvl : Byte) (vb : BitVec 3) : (bitLenOf lvl vb).toInt = exactBitLen lvl vb := by
  have := exactBitLen_bounds lvl vb
  rw [bitLenOf, BitVec.toInt_ofInt]
  exact Int.bmod_eq_of_le (by omega) (by omega)

/-- After a poll within the budget the status that X_ERR_RD leaves is that of the cause table (R119, R120, R151). -/
theorem statusAfterErr_eq_causeTable (hc : s.cnt ≠ 0) (hs : s.status = s.cfg.stErr) :
    statusAfterErr s = causeTable s := by
  have hx : ¬exhausted s = true := fun h => hc (exhausted_iff.1 h)
  rw [statusAfterErr, causeTable, if_neg hx, hs]

theorem causeTable_of_exhausted (h : exhausted s = true) : causeTable s = s.cfg.stErr := by
  rw [causeTable, if_pos h]

theorem statusAfterErr_of_chipError (h : chipError s = true) : statusAfterErr s = s.status := by
  rw [statusAfterErr, if_pos h]

theorem statusAfterErr_ne_stErr (hl : s.cfg.legal = true) (h : ¬chipError s = true) :
    statusAfterErr s ≠ s.cfg.stErr := by
  obtain ⟨_, hOk, hNoTag⟩ := legal_status hl
  rw [statusAfterErr, if_neg h]
  split
  · exact hNoTag
  · exact hOk

theorem phaseInv_xCmdWr (hl : s.cfg.legal = true) (h : execPending s ∧ s.idx = s.len) :
    (phaseXCmdWr s).phaseInv := by
  obtain ⟨pending, hi⟩ := h
  rw [phaseXCmdWr]
  split
  · exact ⟨pending, hi, isTransceive_iff.1 ‹_›⟩
  · exact ⟨pending, (legal_budgets hl).1, Nat.le_refl _⟩

theorem phaseInv_xErrRd (hl : s.cfg.legal = true) (pending : execPending s) (hc : s.cnt ≠ 0) :
    (phaseXErrRd s).phaseInv := by
  obtain ⟨hop, masks, hs, cleared⟩ := pending
  have status : statusAfterErr (readErr s) = causeTable (readErr s) := statusAfterErr_eq_causeTable hc hs
  rw [phaseXErrRd]
  refine phaseInv_branch (fun hx => ?_) (fun hx => ?_)
  · have hst : statusAfterErr (readErr s) = s.cfg.stErr := (statusAfterErr_of_chipError hx).trans hs
    exact ⟨hop, masks, status, by rw [if_neg (fun h => h.1 hst)]; exact cleared⟩
  · refine phaseInv_branch (fun ht => ?_) (fun ht => ?_)
    · exact ⟨⟨hop, masks, isTransceive_iff.1 ht, status, statusAfterErr_ne_stErr hl hx⟩, cleared⟩
    · exact ⟨hop, masks, status, by rw [if_neg (fun h => ht (isTransceive_iff.2 h.2))]; exact cleared⟩

theorem phaseInv_xLastRd (hl : s.cfg.legal = true) (h : receiving s ∧ s.olen = 0) : (phaseXLastRd s).phaseInv := by
  obtain ⟨hrec, ho⟩ := h
  have hd := (drainCount_bounds s.lvl (legal_maxLen hl).1).1
  exact ⟨hrec, rfl, bitLenOf_toInt _ _, hd, (congrArg BitVec.toNat ho : s.olen.toNat = 0)⟩

/-- A drain pass sets OLEN to the index it leaves, as long as the five bits of OLEN hold it (R124). -/
theorem drainByte_olen_eq_idx (hi : s.idx.toNat < 31) : (drainByte s).olen.toNat = (drainByte s).idx.toNat := by
  simp [BitVec.toNat_add]
  omega

theorem phaseInv_xDrain (hl : s.cfg.legal = true) (hp : s.phase = .xDrain) (h : s.phaseInv) :
    (phaseXDrain s).phaseInv := by
  simp only [State.phaseInv, hp] at h
  obtain ⟨⟨hop, masks, hcmd, hs, hne⟩, hd, hb, hi, _⟩ := h
  have hmax := legal_maxLen hl
  have hd16 : s.dcnt.toNat ≤ 16 := by
    rw [hd]
    exact Nat.le_trans (drainCount_bounds s.lvl hmax.1).2 hmax.2
  have ho := drainByte_olen_eq_idx (s := s) (by omega)
  have hnext : (drainByte s).idx.toNat = s.idx.toNat + 1 := idx_succ hi (by omega)
  refine phaseInv_branch (fun hm => ?_) (fun hm => ?_)
  · exact ⟨⟨hop, masks, hcmd, hs, hne⟩, hd, hb, moreToDrain_iff.1 hm, ho⟩
  · rw [moreToDrain_iff, drainByte_dcnt] at hm
    have hall : (drainByte s).olen = s.dcnt := BitVec.eq_of_toNat_eq (by omega)
    exact ⟨hop, masks, hs, by rw [if_pos ⟨hne, hcmd⟩]; exact ⟨hd, hb, hall⟩⟩

/-- What holds in each phase is kept by the step of the phase, under a legal CFG. -/
theorem phaseInv_phaseStep (hl : s.cfg.legal = true) (h : s.phaseInv) : (phaseStep s).phaseInv := by
  have h0 := h
  rw [State.phaseInv] at h
  rw [phaseStep]
  cases hp : s.phase with simp only [hp] at h ⊢
  | idle => exact h0
  | xIenWr | xIrqRd | xIrqWr | xFlushRd | xFlushWr | xStartRd | xStopRd | xLevelRd => exact h
  | cClrRd | cClrWr | cFlushRd | cResL | cResH => exact h
  | xIdleWr | cFlushWr =>
    obtain ⟨pending, hi⟩ := h
    exact phaseInv_branch (fun hn => ⟨pending, idx_lt_len hn hi⟩)
      (fun hn => ⟨pending, idx_eq_len_of_empty hn hi⟩)
  | xLoad | cLoad =>
    obtain ⟨pending, hi⟩ := h
    exact phaseInv_branch (fun hm => ⟨pending, moreToLoad_iff.1 hm⟩)
      (fun hm => ⟨pending, loadByte_idx_eq_len hi hm⟩)
  | xCmdWr => exact phaseInv_xCmdWr hl h
  | xStartWr => exact ⟨h.1, (legal_budgets hl).1, Nat.le_refl _⟩
  | xPoll =>
    obtain ⟨pending, hc, hb⟩ := h
    have hlt := pollOnce_cnt_lt (a := s.cfg.regIrq) hc hb
    exact phaseInv_branch (fun hx => ⟨pending, hlt, hx⟩)
      (fun hx => ⟨pending, cnt_of_not_exit (.inl hx), Nat.le_of_lt hlt⟩)
  | xStopWr =>
    obtain ⟨⟨hop, masks, hs, cleared⟩, hb, hx⟩ := h
    refine phaseInv_branch (fun he => ?_) (fun he => ?_)
    · exact ⟨hop, masks, hs.trans (causeTable_of_exhausted he).symm, by rw [if_neg (fun h => h.1 hs)]; exact cleared⟩
    · have hc : s.cnt ≠ 0 := fun h => he (exhausted_iff.2 h)
      have seen : timerSeen s = true ∨ waitSeen s = true := by
        simpa [pollExit, he] using hx
      exact ⟨⟨hop, masks, hs, cleared⟩, hc, hb, seen⟩
  | xErrRd =>
    obtain ⟨pending, hc, _, _⟩ := h
    exact phaseInv_xErrRd hl pending hc
  | xLastRd => exact phaseInv_xLastRd hl ⟨h.1, h.2.1⟩
  | xDrain => exact phaseInv_xDrain hl hp h0
  | cCmdWr => exact ⟨h.1, (legal_budgets hl).2, Nat.le_refl _⟩
  | cPoll =>
    obtain ⟨pending, hc, hb⟩ := h
    have hlt := pollOnce_cnt_lt (a := s.cfg.regDivIrq) hc hb
    exact phaseInv_branch (fun hx => ⟨pending, hx⟩)
      (fun hx => ⟨pending, cnt_of_not_exit (.inr hx), Nat.le_of_lt hlt⟩)
  | xDone | cDone => trivial

/-! ## Every operation keeps the ranges -/

theorem State.Ranges.goto (h : s.Ranges) (p : Phase) : (goto p s).Ranges := { h with }

theorem State.Ranges.tick (h : s.Ranges) : (tick s).Ranges := { h with }

theorem State.Ranges.readToT (h : s.Ranges) (a : Byte) : (readToT a s).Ranges := { h with }

theorem State.Ranges.pollOnce (h : s.Ranges) (a : Byte) : (pollOnce a s).Ranges := { h with }

theorem State.Ranges.busRead (h : s.Ranges) (a : Byte) : (busRead a s).Ranges := { h with }

theorem State.Ranges.readErr (h : s.Ranges) : (readErr s).Ranges := { h with }

theorem State.Ranges.loadCnt (h : s.Ranges) (b : BitVec 16) : (loadCnt b s).Ranges := { h with }

theorem State.Ranges.busWrite (h : s.Ranges) (a v : Byte) : (busWrite a v s).Ranges :=
  { h with mem := Memory.wf_write _ v h.mem }

theorem State.Ranges.loadByte (h : s.Ranges) : (loadByte s).Ranges :=
  { h.busWrite s.cfg.regFifoData (inByte s) with }

theorem State.Ranges.respond (h : s.Ranges) {r : Response} (hr : r.InRange s.cfg) : (respond r s).Ranges :=
  { h with
    responses := fun x hx => by
      rw [respond_responses, List.mem_append, List.mem_singleton] at hx
      exact hx.elim (h.responses x) (fun he => he ▸ hr) }

/-- A reset puts every register in range, and neither the register space nor the responses change (R175, R177). -/
theorem State.Ranges.resetEngine (h : s.Ranges) : (resetEngine s).Ranges where
  legal := h.legal
  mem := h.mem
  status := .inr (.inr rfl)
  dcnt := Nat.zero_le _
  olen := Nat.zero_le _
  bitLen_ge := (by decide : (-7 : Int) ≤ (0 : BitVec 12).toInt)
  bitLen_le := (by decide : (0 : BitVec 12).toInt ≤ 2040)
  responses := h.responses

/-- The status after the error register is one of the three codes (R38, R119, R120). -/
theorem State.Ranges.setStatus_afterErr (h : s.Ranges) : (setStatus (statusAfterErr s) s).Ranges :=
  { h with
    status := by
      rw [setStatus_status, statusAfterErr]
      split
      · exact h.status
      · split
        · exact .inr (.inl rfl)
        · exact .inl rfl }

theorem State.Ranges.readLast (h : s.Ranges) : (readLast s).Ranges :=
  have bounds := exactBitLen_bounds s.lvl (validBitsOf s.cfg.lastBitsLsb (answer s))
  have maxLen := legal_maxLen h.legal
  { h with
    dcnt := Nat.le_trans (drainCount_bounds s.lvl maxLen.1).2 maxLen.2
    bitLen_ge := by rw [readLast_bitLen, bitLenOf_toInt]; exact bounds.1
    bitLen_le := by rw [readLast_bitLen, bitLenOf_toInt]; exact bounds.2 }

theorem State.Ranges.drainByte (h : s.Ranges) (hi : s.idx.toNat < 16) : (drainByte s).Ranges :=
  { h with
    olen := by
      rw [drainByte_olen_eq_idx (by omega), drainByte_idx, idx_succ hi (by decide)]
      exact hi }

theorem payload_length_le (s : State) : (payload s).length ≤ 16 := by
  rw [payload, List.length_take, Vector.length_toList]
  exact Nat.min_le_right _ _

/-- The response of X_DONE is in range: an Error has left the result registers cleared (R76, R104, R151). -/
theorem inRange_of_xDone (hr : s.Ranges) (hp : s.phase = .xDone) (h : s.phaseInv) :
    (Response.exec s.status (payload s) s.vb s.bitLen).InRange s.cfg := by
  simp only [State.phaseInv, hp] at h
  obtain ⟨_, _, _, result⟩ := h
  refine ⟨hr.status, payload_length_le s, hr.bitLen_ge, hr.bitLen_le, fun hs => ?_⟩
  rw [if_neg (fun h => h.1 hs)] at result
  obtain ⟨ho, hv, hb⟩ := result
  exact ⟨by simp [payload, ho], hv, hb⟩

/-- A state that drains has its index below the 16 bytes of OUT (R124). -/
theorem idx_lt_of_xDrain (hr : s.Ranges) (hp : s.phase = .xDrain) (h : s.phaseInv) : s.idx.toNat < 16 := by
  simp only [State.phaseInv, hp] at h
  obtain ⟨_, _, _, hi, _⟩ := h
  exact Nat.lt_of_lt_of_le hi hr.dcnt

theorem ranges_xCmdWr (h : s.Ranges) : (phaseXCmdWr s).Ranges := by
  rw [phaseXCmdWr]
  split
  · exact (h.busWrite _ _).goto _
  · exact ((h.busWrite _ _).loadCnt _).goto _

theorem ranges_phaseStep (h : s.Ranges) (inv : s.phaseInv) : (phaseStep s).Ranges := by
  rw [phaseStep]
  cases hp : s.phase with
  | idle => exact h
  | xIenWr | xIrqWr | xFlushWr | xIdleWr | xStopWr | cClrWr | cFlushWr => exact (h.busWrite _ _).goto _
  | xIrqRd | xFlushRd | xStartRd | xStopRd | cClrRd | cFlushRd => exact (h.readToT _).goto _
  | xLoad | cLoad => exact h.loadByte.goto _
  | xCmdWr => exact ranges_xCmdWr h
  | xStartWr | cCmdWr => exact ((h.busWrite _ _).loadCnt _).goto _
  | xPoll | cPoll => exact (h.pollOnce _).goto _
  | xErrRd => exact h.readErr.setStatus_afterErr.goto _
  | xLevelRd | cResL | cResH => exact { h with }
  | xLastRd => exact h.readLast.goto _
  | xDrain => exact (h.drainByte (idx_lt_of_xDrain h hp inv)).goto _
  | xDone => exact h.respond (inRange_of_xDone h hp inv)
  | cDone => exact h.respond trivial

/-! ## Every engine step keeps the invariant -/

theorem phaseStep_keeps_inv (h : s.Inv) : (phaseStep s).Inv := by
  obtain ⟨ranges, phase⟩ := inv_iff.1 h
  exact inv_iff.2 ⟨ranges_phaseStep ranges phase, phaseInv_phaseStep ranges.legal phase⟩

theorem tick_keeps_inv (h : s.Inv) : (tick s).Inv := h

theorem resetEngine_keeps_inv (h : s.Inv) : (resetEngine s).Inv := h.ranges.resetEngine.inv_of_idle rfl

theorem engineStep_keeps_inv (h : s.Inv) : (engineStep s).Inv := by
  rw [engineStep]
  split
  · exact resetEngine_keeps_inv h
  · exact phaseStep_keeps_inv (tick_keeps_inv h)

/-- Settles O50: a reset leaves every register in range, and the step of a phase establishes what holds in the next. -/
theorem engineStepKeepsInvariant : Obligations.EngineStepKeepsInvariant :=
  fun _ h _ => engineStep_keeps_inv h

/-! ## What a step of the block can do -/

/-- What the meaning of an instruction can be: an EXEC, a CRC, or an access of the requester (R103, R134, R95, R96). -/
theorem exec_cases {i : Instr} {t : State} (h : exec i s = .next t) :
    (∃ cmd data, t = runExec cmd data s) ∨ (∃ data, t = runCrc data s) ∨ (∃ a v, t = busWrite a v s) ∨
      ∃ a, t = busRead a s := by
  cases i with
  | crc d => cases h; exact .inr (.inl ⟨_, rfl⟩)
  | busWr a v => cases h; exact .inr (.inr (.inl ⟨_, _, rfl⟩))
  | busRd a => cases h; exact .inr (.inr (.inr ⟨_, rfl⟩))
  | execIdle d | execCalcCrc d | execTransceive d | execAuthent d | execSoftReset d | execOther cmd d =>
    cases h; exact .inl ⟨_, _, rfl⟩

/-- In IDLE the block waits, rejects a frame or runs an instruction; only the inbox has changed before (R24, R85). -/
inductive IdleStep (s : State) : State → Prop where
  | wait : IdleStep s (tick s)
  | reject (r : RejectReason) (inbox : List Inbound) : IdleStep s (reject r (tick { s with inbox := inbox }))
  | run {i : Instr} {t : State} (inbox : List Inbound) (h : exec i { s with inbox := inbox } = .next t) : IdleStep s t

/-- A step of the block takes a reset, finishes the request in progress, or is one of those in IDLE (R9, R25, R178). -/
inductive BlockStep (s : State) : State → Prop where
  | reset : BlockStep s (resetEngine s)
  | finish : BlockStep s (finishRequest s)
  | idle {t : State} (hp : s.phase = .idle) (h : IdleStep s t) : BlockStep s t

/-- What `fetch` found is what the step answers. -/
def Next.Answers (n : Next) (t : State) : Prop := n = .settle t ∨ ∃ i u, n = .run i u ∧ exec i u = .next t

theorem step_answers {t : State} (h : step s = .next t) : (fetch s).Answers t := by
  cases hf : fetch s with
  | refuse r => rw [step_refuse hf] at h; cases h
  | settle u => rw [step_settle hf] at h; cases h; exact .inl rfl
  | run i u => rw [step_run hf] at h; exact .inr ⟨i, u, rfl, h⟩

theorem idleStep_of_dispatchDecoded {item : List Byte → Inbound} {rest : List Inbound} {d : Decoded} {t : State}
    (h : (dispatchDecoded item rest s d).Answers t) : IdleStep s t := by
  obtain h | ⟨i, u, h, hx⟩ := h
  · cases d with
    | instr i more => cases h
    | reject r more => cases h; exact .reject r _
    | reservedByte b more => cases h
    | incomplete => cases h; exact .wait
  · cases d with
    | instr j more => cases h; exact .run _ hx
    | reject r more => cases h
    | reservedByte b more => cases h
    | incomplete => cases h

theorem idleStep_of_fetchIdle {t : State} (h : (fetchIdle s).Answers t) : IdleStep s t := by
  match hi : s.inbox with
  | [] =>
    rw [fetchIdle_nil hi] at h
    obtain h | ⟨i, u, h, _⟩ := h
    · cases h; exact .wait
    · cases h
  | .request bytes :: rest => rw [fetchIdle_request hi] at h; exact idleStep_of_dispatchDecoded h
  | .access bytes :: rest => rw [fetchIdle_access hi] at h; exact idleStep_of_dispatchDecoded h

theorem blockStep_of_step {t : State} (h : step s = .next t) : BlockStep s t := by
  have h := step_answers h
  rw [fetch] at h
  split at h
  · obtain h | ⟨i, u, h, _⟩ := h <;> cases h
  · split at h
    · obtain h | ⟨i, u, h, _⟩ := h <;> cases h
      exact .reset
    · split at h
      · exact .idle ‹_› (idleStep_of_fetchIdle h)
      · obtain h | ⟨i, u, h, _⟩ := h <;> cases h
        exact .finish

/-! ## Every step of the block keeps the invariant -/

theorem finishRequest_keeps_inv (h : s.Inv) : (finishRequest s).Inv :=
  finishRequest_keeps (fun _ _ h => engineStep_keeps_inv h) h

theorem whenIdle_keeps_inv (h : s.Inv) : (whenIdle s).Inv := by
  rw [whenIdle]
  split
  · exact resetEngine_keeps_inv (finishRequest_keeps_inv h)
  · exact tick_keeps_inv (finishRequest_keeps_inv h)

/-- Acceptance establishes what holds in X_IEN_WR, whatever the phase was (R104, R105). -/
theorem acceptExec_keeps_inv (cmd : Byte) (data : List Byte) (h : s.Inv) : (acceptExec cmd data s).Inv :=
  inv_iff.2 ⟨{ h.ranges with
      status := .inr (.inr rfl)
      olen := Nat.zero_le _
      bitLen_ge := (by decide : (-7 : Int) ≤ (0 : BitVec 12).toInt)
      bitLen_le := (by decide : (0 : BitVec 12).toInt ≤ 2040) },
    ⟨rfl, ⟨rfl, rfl⟩, rfl, rfl, rfl, rfl⟩, rfl⟩

/-- Acceptance establishes what holds in C_CLR_RD, whatever the phase was (R135). -/
theorem acceptCrc_keeps_inv (data : List Byte) (h : s.Inv) : (acceptCrc data s).Inv :=
  inv_iff.2 ⟨{ h.ranges with }, ⟨rfl, rfl, rfl, rfl⟩, rfl⟩

theorem exec_keeps_inv {i : Instr} {t : State} (hp : s.phase = .idle) (h : s.Inv) (hx : exec i s = .next t) :
    t.Inv := by
  obtain ⟨cmd, data, rfl⟩ | ⟨data, rfl⟩ | ⟨a, v, rfl⟩ | ⟨a, rfl⟩ := exec_cases hx
  · exact finishRequest_keeps_inv (acceptExec_keeps_inv cmd data (whenIdle_keeps_inv h))
  · exact finishRequest_keeps_inv (acceptCrc_keeps_inv data (whenIdle_keeps_inv h))
  · exact (h.ranges.busWrite a v).inv_of_idle hp
  · exact (h.ranges.busRead a).inv_of_idle hp

/-- A rejected frame leaves every register as it was (R156). -/
theorem State.Ranges.reject (h : s.Ranges) (r : RejectReason) : (reject r s).Ranges :=
  { h.respond (r := .reject r) trivial with }

theorem idleStep_keeps_inv {t : State} (hp : s.phase = .idle) (h : s.Inv) (hx : IdleStep s t) : t.Inv := by
  cases hx with
  | wait => exact tick_keeps_inv h
  | reject r inbox =>
    have ranges : (tick { s with inbox := inbox }).Ranges := { h.ranges with }
    exact (ranges.reject r).inv_of_idle hp
  | run inbox hx => exact exec_keeps_inv (s := { s with inbox := inbox }) hp h hx

/-- Settles O51: a step of the block is made of engine steps, acceptances and steps in IDLE, and each keeps the invariant. -/
theorem stepKeepsInvariant : Obligations.StepKeepsInvariant := by
  intro s t h hx
  cases blockStep_of_step hx with
  | reset => exact resetEngine_keeps_inv h
  | finish => exact finishRequest_keeps_inv h
  | idle hp hi => exact idleStep_keeps_inv hp h hi

/-! ## CFG is constant -/

@[simp] theorem whenIdle_cfg (s : State) : (whenIdle s).cfg = s.cfg := by
  rw [whenIdle]
  split <;> simp

theorem exec_keeps_cfg {i : Instr} {t : State} (h : exec i s = .next t) : t.cfg = s.cfg := by
  obtain ⟨cmd, data, rfl⟩ | ⟨data, rfl⟩ | ⟨a, v, rfl⟩ | ⟨a, rfl⟩ := exec_cases h
  · simp [runExec]
  · simp [runCrc]
  · rfl
  · rfl

/-- Settles O48: neither a reset, nor the run of a request, nor a step in IDLE writes CFG. -/
theorem cfgNeverChanges : Obligations.CfgNeverChanges := by
  intro s t h
  cases blockStep_of_step h with
  | reset => rfl
  | finish => exact finishRequest_cfg s
  | idle _ hi =>
    cases hi with
    | wait => rfl
    | reject r inbox => rfl
    | run inbox hx => exact exec_keeps_cfg (s := { s with inbox := inbox }) hx

/-! ## The invariant at reset -/

/-- Settles O52: the default CFG is legal, every register is 0 or ST_ERR, and nothing has happened. -/
theorem invariantAtReset : Obligations.InvariantAtReset := by
  have legal : State.reset.cfg.legal = true := by decide
  have ranges : State.reset.Ranges := {
    legal, mem := rfl, status := .inr (.inr rfl), dcnt := Nat.zero_le _, olen := Nat.zero_le _
    bitLen_ge := by decide, bitLen_le := by decide, responses := by simp [State.reset] }
  exact ⟨ranges.inv_of_idle rfl, ⟨rfl, rfl, legal⟩, rfl, rfl⟩

end Sys2Proof.Machine
end

section
/-! PROOFS. The run of a request in a ready state is the pseudocode of R103 and R134, and what it leaves unchanged (O45,
O46). -/

namespace Sys2Proof.Machine

variable {s : State}

/-! ## The lines of R103 -/

/-- Line 2 of R103. -/
def pseudoPrepare (s : State) : State :=
  let s1 := busWrite s.cfg.regIen (s.ien ||| s.cfg.ienOr) s
  let s2 := clrb s1.cfg.regIrq s1.cfg.irqClear s1
  setb s2.cfg.regFifoLevel s2.cfg.fifoFlush s2

/-- Line 3 of R103. -/
def pseudoLoad (s : State) : State :=
  let s1 := loadLoop s.len.toNat (busWrite s.cfg.regCommand s.cfg.cmdIdle s)
  busWrite s1.cfg.regCommand s1.cmd s1

/-- Line 5 of R103. -/
def pseudoPoll (s : State) : State := pollLoop s.cfg.pollBudget.toNat (loadCnt s.cfg.pollBudget s)

/-- Line 6 of R103. -/
def pseudoStop (s : State) : State := clrb s.cfg.regBitFraming s.cfg.startSend s

/-- Line 7 of R103. -/
def pseudoResult (s : State) : State := if s.cnt ≠ 0 then pseudoClassify s else s

/-- Line 8 of R103. -/
def respondExec (s : State) : State := respond (.exec s.status (payload s) s.vb s.bitLen) s

@[simp] theorem respondExec_mem (s : State) : (respondExec s).mem = s.mem := rfl
@[simp] theorem respondExec_cnt (s : State) : (respondExec s).cnt = s.cnt := rfl
@[simp] theorem respondExec_crcL (s : State) : (respondExec s).crcL = s.crcL := rfl
@[simp] theorem respondExec_crcH (s : State) : (respondExec s).crcH = s.crcH := rfl
@[simp] theorem respondExec_err (s : State) : (respondExec s).err = s.err := rfl
@[simp] theorem respondExec_lvl (s : State) : (respondExec s).lvl = s.lvl := rfl
@[simp] theorem respondExec_dcnt (s : State) : (respondExec s).dcnt = s.dcnt := rfl
@[simp] theorem respondExec_outBuf (s : State) : (respondExec s).outBuf = s.outBuf := rfl

/-- Lines 1 to 6 of R103, from acceptance to the end of the poll. -/
def pseudoPolled (cmd : Byte) (data : List Byte) (s : State) : State :=
  pseudoStop (pseudoPoll (pseudoStart (pseudoLoad (pseudoPrepare (acceptExec cmd data s)))))

theorem pseudoExec_eq (cmd : Byte) (data : List Byte) (s : State) :
    pseudoExec cmd data s = respondExec (pseudoResult (pseudoPolled cmd data s)) := rfl

theorem pseudoStart_transceive (h : isTransceive s = true) :
    pseudoStart s = setb s.cfg.regBitFraming s.cfg.startSend s := if_pos h

theorem pseudoStart_other (h : ¬isTransceive s = true) : pseudoStart s = s := if_neg h

theorem pseudoResult_exhausted (h : s.cnt = 0) : pseudoResult s = s := if_neg (not_not.2 h)

theorem pseudoResult_classify (h : s.cnt ≠ 0) : pseudoResult s = pseudoClassify s := if_pos h

/-- Without a chip error line 7 of R103 sets the status, and a Transceive goes on to receive. -/
theorem pseudoClassify_noError (h : ¬chipError (readErr s) = true) :
    pseudoClassify s =
      if isTransceive (readErr s) then pseudoReceive (setStatus (statusAfterErr (readErr s)) (readErr s))
      else setStatus (statusAfterErr (readErr s)) (readErr s) := by
  have hx : (readErr s).err &&& (readErr s).cfg.errMask = 0 := not_not.1 (mt chipError_iff.2 h)
  have status : (if noTagSeen (setStatus (readErr s).cfg.stOk (readErr s)) then
        setStatus (readErr s).cfg.stNoTag (setStatus (readErr s).cfg.stOk (readErr s))
      else setStatus (readErr s).cfg.stOk (readErr s)) = setStatus (statusAfterErr (readErr s)) (readErr s) := by
    rw [statusAfterErr, if_neg h]
    by_cases hn : noTagSeen (readErr s) = true
    · rw [if_pos hn, if_pos (by exact hn)]; rfl
    · rw [if_neg hn, if_neg (by exact hn)]
  rw [pseudoClassify, if_pos hx]
  simp only [setStatus_cfg, status]
  rfl

/-- What line 7 of R103 does once the error register is read: nothing more on a chip error, else the status, and for a
Transceive the receive branch. -/
theorem pseudoClassify_cases (s : State) :
    (chipError (readErr s) = true ∧ pseudoClassify s = readErr s) ∨
    (¬chipError (readErr s) = true ∧ ¬isTransceive (readErr s) = true ∧
      pseudoClassify s = setStatus (statusAfterErr (readErr s)) (readErr s)) ∨
    (¬chipError (readErr s) = true ∧ isTransceive (readErr s) = true ∧
      pseudoClassify s = pseudoReceive (setStatus (statusAfterErr (readErr s)) (readErr s))) := by
  by_cases hx : chipError (readErr s) = true
  · exact .inl ⟨hx, if_neg (chipError_iff.1 hx)⟩
  · by_cases ht : isTransceive (readErr s) = true
    · exact .inr (.inr ⟨hx, ht, (pseudoClassify_noError hx).trans (if_pos ht)⟩)
    · exact .inr (.inl ⟨hx, ht, (pseudoClassify_noError hx).trans (if_neg ht)⟩)

/-! ## The lines of R134 -/

/-- Lines a and b of R134. -/
def pseudoCrcPrepare (s : State) : State :=
  let s1 := clrb s.cfg.regDivIrq s.cfg.crcDone s
  setb s1.cfg.regFifoLevel s1.cfg.fifoFlush s1

/-- Lines c and d of R134. -/
def pseudoCrcLoad (s : State) : State :=
  let s1 := loadLoop s.len.toNat s
  busWrite s1.cfg.regCommand s1.cfg.cmdCalcCrc s1

/-- Line e of R134. -/
def pseudoCrcPoll (s : State) : State := crcPollLoop s.cfg.crcBudget.toNat (loadCnt s.cfg.crcBudget s)

/-- Line f of R134. -/
def pseudoCrcResult (s : State) : State :=
  let s1 := readCrcH (readCrcL s)
  respond (.crc s1.crcL s1.crcH) s1

/-- Lines a to e of R134, from acceptance to the end of the poll. -/
def pseudoCrcPolled (data : List Byte) (s : State) : State :=
  pseudoCrcPoll (pseudoCrcLoad (pseudoCrcPrepare (acceptCrc data s)))

theorem pseudoCrc_eq (data : List Byte) (s : State) : pseudoCrc data s = pseudoCrcResult (pseudoCrcPolled data s) := rfl

/-! ## The phases run the lines -/

theorem finishRequest_xIenWr (hr : s.resetIn = none) :
    finishRequest (goto .xIenWr s) = finishRequest (goto .xIdleWr (pseudoPrepare s)) := by
  rw [finishRequest_goto (by decide) hr, phaseStep_xIenWr, finishRequest_xIrq (by simpa using hr),
    finishRequest_xFlush (by simpa using hr)]
  rfl

theorem finishRequest_xCmdWr (hr : s.resetIn = none) (hl : s.cfg.legal = true) :
    finishRequest (goto .xCmdWr s) =
      finishRequest (goto .xStopRd (pseudoPoll (pseudoStart (busWrite s.cfg.regCommand s.cmd s)))) := by
  have hu : isTransceive (busWrite s.cfg.regCommand s.cmd s) = isTransceive s := rfl
  have hb := (legal_budgets hl).1
  rw [finishRequest_goto (by decide) hr]
  by_cases ht : isTransceive s = true
  · rw [phaseStep_xCmdWr_transceive s ht, finishRequest_xStart (by simpa using hr),
      finishRequest_poll (by simpa using hr) (by simpa using hb), pseudoStart_transceive (hu.trans ht)]
    rfl
  · rw [phaseStep_xCmdWr_other s (by simpa using ht), finishRequest_poll (by simpa using hr) (by simpa using hb),
      pseudoStart_other (by rwa [hu])]
    rfl

theorem finishRequest_xIdleWr (hr : s.resetIn = none) (hl : s.cfg.legal = true) (hi : s.idx = 0) :
    finishRequest (goto .xIdleWr s) = finishRequest (goto .xStopRd (pseudoPoll (pseudoStart (pseudoLoad s)))) := by
  rw [finishRequest_goto (by decide) hr, phaseStep_xIdleWr, ← busWrite_len s s.cfg.regCommand s.cfg.cmdIdle,
    finishRequest_load (by decide) phaseStep_xLoad (by simpa using hr) (by simpa using hi),
    finishRequest_xCmdWr (by simpa using hr) (by simpa using hl)]
  rfl

/-- The receive branch drains at least one byte (R123). -/
theorem finishRequest_xLevelRd (hr : s.resetIn = none) (hl : s.cfg.legal = true) :
    finishRequest (goto .xLevelRd s) = respondExec (pseudoReceive s) := by
  have hd := (drainCount_bounds (answer s) (legal_maxLen hl).1).1
  obtain ⟨n, hn⟩ : ∃ n, (readLast (readLevel s)).dcnt.toNat = n + 1 :=
    ⟨_, (Nat.sub_add_cancel hd).symm⟩
  rw [finishRequest_goto (by decide) hr, phaseStep_xLevelRd, finishRequest_goto (by decide) (by simpa using hr),
    phaseStep_xLastRd, finishRequest_drain n (by simpa using hr) (by rw [hn]; simp), finishRequest_xDone (by simpa using hr)]
  rw [pseudoReceive, respondExec, hn]

theorem finishRequest_xErrRd (hr : s.resetIn = none) (hl : s.cfg.legal = true) :
    finishRequest (goto .xErrRd s) = respondExec (pseudoClassify s) := by
  rw [finishRequest_goto (by decide) hr, phaseStep_xErrRd]
  obtain ⟨hx, h⟩ | ⟨hx, ht, h⟩ | ⟨hx, ht, h⟩ := pseudoClassify_cases s
  · rw [if_pos hx, finishRequest_xDone (by simpa using hr), h, statusAfterErr_of_chipError hx]
    rfl
  · rw [if_neg hx, if_neg ht, finishRequest_xDone (by simpa using hr), h]
    rfl
  · rw [if_neg hx, if_pos ht, finishRequest_xLevelRd (by simpa using hr) (by simpa using hl), h]

theorem finishRequest_xStopRd (hr : s.resetIn = none) (hl : s.cfg.legal = true) :
    finishRequest (goto .xStopRd s) = respondExec (pseudoResult (pseudoStop s)) := by
  rw [finishRequest_xStop hr]
  by_cases hx : exhausted s = true
  · have hc : (pseudoStop s).cnt = 0 := exhausted_iff.1 hx
    rw [if_pos hx, finishRequest_xDone (by simpa using hr), pseudoResult_exhausted hc]
    rfl
  · have hc : (pseudoStop s).cnt ≠ 0 := mt exhausted_iff.2 hx
    rw [if_neg hx, finishRequest_xErrRd (by simpa using hr) (by simpa using hl), pseudoResult_classify hc]
    rfl

theorem finishRequest_cFlushRd (hr : s.resetIn = none) (hi : s.idx = 0) :
    finishRequest (goto .cFlushRd s) =
      finishRequest (goto .cCmdWr (loadLoop s.len.toNat (setb s.cfg.regFifoLevel s.cfg.fifoFlush s))) := by
  rw [finishRequest_cFlush hr, ← setb_len s s.cfg.regFifoLevel s.cfg.fifoFlush,
    finishRequest_load (by decide) phaseStep_cLoad (by simpa using hr) (by simpa using hi)]

theorem finishRequest_cClrRd (hr : s.resetIn = none) (hi : s.idx = 0) :
    finishRequest (goto .cClrRd s) =
      finishRequest (goto .cCmdWr (loadLoop (pseudoCrcPrepare s).len.toNat (pseudoCrcPrepare s))) := by
  rw [finishRequest_cClr hr, finishRequest_cFlushRd (by simpa using hr) (by simpa using hi)]
  rfl

theorem finishRequest_cCmdWr (hr : s.resetIn = none) (hl : s.cfg.legal = true) :
    finishRequest (goto .cCmdWr s) =
      pseudoCrcResult (pseudoCrcPoll (busWrite s.cfg.regCommand s.cfg.cmdCalcCrc s)) := by
  rw [finishRequest_goto (by decide) hr, phaseStep_cCmdWr,
    finishRequest_crcPoll (by simpa using hr) (by simpa using (legal_budgets hl).2),
    finishRequest_cRes (by simpa using hr)]
  rfl

/-! ## What the lines before the result keep -/

/-- A property that the operations of the lines before the result keep, whatever address and value. -/
structure KeptByTransfers (P : State → Prop) : Prop where
  write : ∀ a v u, P u → P (busWrite a v u)
  read : ∀ a u, P u → P (readToT a u)
  load : ∀ u, P u → P (loadByte u)
  budget : ∀ b u, P u → P (loadCnt b u)
  poll : ∀ u a, P u → P (pollOnce a u)

section
variable {P : State → Prop} (k : KeptByTransfers P)
include k

theorem KeptByTransfers.setb (a m : Byte) (h : P s) : P (setb a m s) := k.write _ _ _ (k.read _ _ h)

theorem KeptByTransfers.clrb (a m : Byte) (h : P s) : P (clrb a m s) := k.write _ _ _ (k.read _ _ h)

theorem KeptByTransfers.pseudoPrepare (h : P s) : P (pseudoPrepare s) := k.setb _ _ (k.clrb _ _ (k.write _ _ _ h))

theorem KeptByTransfers.pseudoLoad (h : P s) : P (pseudoLoad s) :=
  k.write _ _ _ (loadLoop_keeps k.load _ (k.write _ _ _ h))

theorem KeptByTransfers.pseudoStart (h : P s) : P (pseudoStart s) := by
  by_cases ht : isTransceive s = true
  · rw [pseudoStart_transceive ht]; exact k.setb _ _ h
  · rwa [pseudoStart_other ht]

theorem KeptByTransfers.pseudoPoll (h : P s) : P (pseudoPoll s) := pollLoop_keeps k.poll _ (k.budget _ _ h)

theorem KeptByTransfers.pseudoStop (h : P s) : P (pseudoStop s) := k.clrb _ _ h

theorem KeptByTransfers.pseudoCrcPrepare (h : P s) : P (pseudoCrcPrepare s) := k.setb _ _ (k.clrb _ _ h)

theorem KeptByTransfers.pseudoCrcLoad (h : P s) : P (pseudoCrcLoad s) := k.write _ _ _ (loadLoop_keeps k.load _ h)

theorem KeptByTransfers.pseudoCrcPoll (h : P s) : P (pseudoCrcPoll s) := crcPollLoop_keeps k.poll _ (k.budget _ _ h)

end

/-- The registers that no transfer writes (R30 to R32, R34 to R39): in `u` they are as in `o`. -/
structure SameRegisters (o u : State) : Prop where
  cfg : u.cfg = o.cfg
  resetIn : u.resetIn = o.resetIn
  cmd : u.cmd = o.cmd
  status : u.status = o.status
  olen : u.olen = o.olen
  vb : u.vb = o.vb
  bitLen : u.bitLen = o.bitLen
  outBuf : u.outBuf = o.outBuf
  err : u.err = o.err
  lvl : u.lvl = o.lvl
  dcnt : u.dcnt = o.dcnt
  crcL : u.crcL = o.crcL
  crcH : u.crcH = o.crcH

theorem sameRegisters_refl (o : State) : SameRegisters o o := by constructor <;> rfl

theorem keptByTransfers_sameRegisters (o : State) : KeptByTransfers (SameRegisters o) where
  write _ _ _ h := { h with }
  read _ _ h := { h with }
  load _ h := { h with }
  budget _ _ h := { h with }
  poll _ _ h := { h with }

theorem sameRegisters_prepared (o : State) : SameRegisters o (pseudoPrepare o) :=
  (keptByTransfers_sameRegisters o).pseudoPrepare (sameRegisters_refl o)

theorem sameRegisters_stopped (o : State) :
    SameRegisters o (pseudoPoll (pseudoStart (pseudoLoad (pseudoPrepare o)))) :=
  have k := keptByTransfers_sameRegisters o
  k.pseudoPoll (k.pseudoStart (k.pseudoLoad (sameRegisters_prepared o)))

theorem sameRegisters_pseudoPolled (cmd : Byte) (data : List Byte) (s : State) :
    SameRegisters (acceptExec cmd data s) (pseudoPolled cmd data s) :=
  (keptByTransfers_sameRegisters _).pseudoStop (sameRegisters_stopped _)

theorem sameRegisters_crcPrepared (o : State) : SameRegisters o (pseudoCrcPrepare o) :=
  (keptByTransfers_sameRegisters o).pseudoCrcPrepare (sameRegisters_refl o)

theorem sameRegisters_pseudoCrcPolled (data : List Byte) (s : State) :
    SameRegisters (acceptCrc data s) (pseudoCrcPolled data s) :=
  have k := keptByTransfers_sameRegisters (acceptCrc data s)
  k.pseudoCrcPoll (k.pseudoCrcLoad (sameRegisters_crcPrepared _))

/-- The run of an EXEC is the pseudocode of R103. -/
theorem finishRequest_acceptExec (cmd : Byte) (data : List Byte) (hr : s.resetIn = none) (hl : s.cfg.legal = true) :
    finishRequest (acceptExec cmd data s) = pseudoExec cmd data s := by
  have prepared := sameRegisters_prepared (acceptExec cmd data s)
  have stopped := sameRegisters_stopped (acceptExec cmd data s)
  have start : acceptExec cmd data s = goto .xIenWr (acceptExec cmd data s) := rfl
  have hr' : (acceptExec cmd data s).resetIn = none := hr
  rw [start, finishRequest_xIenWr hr', finishRequest_xIdleWr (prepared.resetIn.trans hr) (by rwa [prepared.cfg]) rfl,
    finishRequest_xStopRd (stopped.resetIn.trans hr) (by rwa [stopped.cfg])]
  rfl

/-- The run of a CRC is the pseudocode of R134. -/
theorem finishRequest_acceptCrc (data : List Byte) (hr : s.resetIn = none) (hl : s.cfg.legal = true) :
    finishRequest (acceptCrc data s) = pseudoCrc data s := by
  have prepared := sameRegisters_crcPrepared (acceptCrc data s)
  have start : acceptCrc data s = goto .cClrRd (acceptCrc data s) := rfl
  have hr' : (acceptCrc data s).resetIn = none := hr
  have hrl : (loadLoop (pseudoCrcPrepare (acceptCrc data s)).len.toNat
      (pseudoCrcPrepare (acceptCrc data s))).resetIn = none := (loadLoop_resetIn _).trans (prepared.resetIn.trans hr)
  rw [start, finishRequest_cClrRd hr' rfl, finishRequest_cCmdWr hrl (by rwa [loadLoop_cfg, prepared.cfg])]
  rfl

/-! ## What line 7 leaves unchanged -/

/-- A property that every operation of line 7 keeps, line 7 keeps. -/
theorem pseudoResult_keeps {P : State → Prop} (err : ∀ u, P u → P (readErr u))
    (status : ∀ st u, P u → P (setStatus st u)) (level : ∀ u, P u → P (readLevel u))
    (last : ∀ u, P u → P (readLast u)) (drain : ∀ u, P u → P (drainByte u)) (h : P s) : P (pseudoResult s) := by
  have herr := err s h
  by_cases hc : s.cnt = 0
  · rwa [pseudoResult_exhausted hc]
  · rw [pseudoResult_classify hc]
    obtain ⟨_, he⟩ | ⟨_, _, he⟩ | ⟨_, _, he⟩ := pseudoClassify_cases s <;> rw [he]
    · exact herr
    · exact status _ _ herr
    · exact drainLoop_keeps drain _ (last _ (level _ (status _ _ herr)))

/-- Line 7 makes no write and leaves CNT and the CRC registers (R39). -/
theorem pseudoResult_frame (s : State) :
    (pseudoResult s).mem = s.mem ∧ (pseudoResult s).cnt = s.cnt ∧ (pseudoResult s).crcL = s.crcL ∧
      (pseudoResult s).crcH = s.crcH :=
  pseudoResult_keeps (P := fun u => u.mem = s.mem ∧ u.cnt = s.cnt ∧ u.crcL = s.crcL ∧ u.crcH = s.crcH)
    (fun _ h => h) (fun _ _ h => h) (fun _ h => h) (fun _ h => h) (fun _ h => h) ⟨rfl, rfl, rfl, rfl⟩

/-- Unless a Transceive received, which sets a status other than Error, line 7 leaves LVL, DCNT and OUT (R35, R37). -/
theorem pseudoResult_notReceived (hl : s.cfg.legal = true)
    (h : (pseudoResult s).status = s.cfg.stErr ∨ s.cmd ≠ s.cfg.cmdTransceive) :
    (pseudoResult s).lvl = s.lvl ∧ (pseudoResult s).dcnt = s.dcnt ∧ (pseudoResult s).outBuf = s.outBuf := by
  by_cases hc : s.cnt = 0
  · rw [pseudoResult_exhausted hc]; exact ⟨rfl, rfl, rfl⟩
  · rw [pseudoResult_classify hc] at h ⊢
    obtain ⟨_, he⟩ | ⟨_, _, he⟩ | ⟨hx, ht, he⟩ := pseudoClassify_cases s <;> rw [he] at h ⊢
    · exact ⟨rfl, rfl, rfl⟩
    · exact ⟨rfl, rfl, rfl⟩
    · have status : (pseudoReceive (setStatus (statusAfterErr (readErr s)) (readErr s))).status =
          statusAfterErr (readErr s) := drainLoop_status _
      obtain hs | hcmd := h
      · exact absurd (status.symm.trans hs) (statusAfterErr_ne_stErr hl hx)
      · exact absurd (isTransceive_iff.1 ht) hcmd

/-- The drain loop only moves OLEN up, and leaves OUT beyond it (R37, R124). -/
theorem drainLoop_out (n : Nat) (ho : s.olen.toNat = s.idx.toNat) :
    s.olen.toNat ≤ (drainLoop n s).olen.toNat ∧
      ∀ k, (drainLoop n s).olen.toNat ≤ k → (drainLoop n s).outBuf[k]? = s.outBuf[k]? := by
  induction n generalizing s with
  | zero => exact ⟨Nat.le_refl _, fun _ _ => rfl⟩
  | succ n ih =>
    by_cases hm : moreToDrain s = true
    · have hi := moreToDrain_iff.1 hm
      have hidx : (drainByte s).idx.toNat = s.idx.toNat + 1 := idx_succ hi (by omega)
      have holen := drainByte_olen_eq_idx (s := s) (by omega)
      obtain ⟨hle, hout⟩ := ih holen
      rw [drainLoop_more hi]
      refine ⟨by omega, fun k hk => ?_⟩
      rw [hout k hk, drainByte_outBuf, Vector.getElem?_setIfInBounds_ne (by omega)]
    · rw [drainLoop, if_neg hm]
      exact ⟨Nat.le_refl _, fun _ _ => rfl⟩

theorem pseudoReceive_out (ho : s.olen = 0) (k : Nat) (hk : (pseudoReceive s).olen.toNat ≤ k) :
    (pseudoReceive s).outBuf[k]? = s.outBuf[k]? := by
  have h0 : (readLast (readLevel s)).olen.toNat = (readLast (readLevel s)).idx.toNat := by simp [ho]
  have out := (drainLoop_out (readLast (readLevel s)).dcnt.toNat h0).2 k hk
  rwa [readLast_outBuf, readLevel_outBuf] at out

/-- Line 7 leaves OUT beyond OLEN (R37). -/
theorem pseudoResult_out (ho : s.olen = 0) (k : Nat) (hk : (pseudoResult s).olen.toNat ≤ k) :
    (pseudoResult s).outBuf[k]? = s.outBuf[k]? := by
  by_cases hc : s.cnt = 0
  · rw [pseudoResult_exhausted hc]
  · rw [pseudoResult_classify hc] at hk ⊢
    obtain ⟨_, he⟩ | ⟨_, _, he⟩ | ⟨_, _, he⟩ := pseudoClassify_cases s <;> rw [he] at hk ⊢
    · rfl
    · rfl
    · rw [pseudoReceive_out (by exact ho) k hk, setStatus_outBuf, readErr_outBuf]

/-! ## What the lines deliver to the register space (R52) -/

theorem read_busWrite_same (a v : Byte) (s : State) : Memory.read (busWrite a v s).mem (busAddr a).toNat = some v :=
  Memory.read_write_same _ _ _

section
variable {b : Nat}

theorem read_busWrite_other {a : Byte} (v : Byte) (h : b ≠ (busAddr a).toNat) :
    Memory.read (busWrite a v s).mem b = Memory.read s.mem b := Memory.read_write_other _ _ h

theorem read_setb_other {a : Byte} (m : Byte) (h : b ≠ (busAddr a).toNat) :
    Memory.read (setb a m s).mem b = Memory.read s.mem b := Memory.read_write_other _ _ h

theorem read_clrb_other {a : Byte} (m : Byte) (h : b ≠ (busAddr a).toNat) :
    Memory.read (clrb a m s).mem b = Memory.read s.mem b := Memory.read_write_other _ _ h

/-- The load loop delivers to the FIFO only, and without data to nothing. -/
theorem read_loadLoop_other (n : Nat) (h : n ≠ 0 → b ≠ (busAddr s.cfg.regFifoData).toNat) :
    Memory.read (loadLoop n s).mem b = Memory.read s.mem b := by
  by_cases hn : n = 0
  · rw [hn, loadLoop]
  · refine (loadLoop_keeps (P := fun u => u.cfg = s.cfg ∧ Memory.read u.mem b = Memory.read s.mem b) ?_ n ⟨rfl, rfl⟩).2
    rintro u ⟨hc, hm⟩
    exact ⟨hc, (read_busWrite_other _ (by rw [hc]; exact h hn)).trans hm⟩

theorem read_pseudoPrepare_other (hien : b ≠ (busAddr s.cfg.regIen).toNat) (hirq : b ≠ (busAddr s.cfg.regIrq).toNat)
    (hlevel : b ≠ (busAddr s.cfg.regFifoLevel).toNat) :
    Memory.read (pseudoPrepare s).mem b = Memory.read s.mem b := by
  rw [pseudoPrepare, read_setb_other _ (by exact hlevel), read_clrb_other _ (by exact hirq), read_busWrite_other _ hien]

theorem read_pseudoLoad_other (hcommand : b ≠ (busAddr s.cfg.regCommand).toNat)
    (hfifo : s.len.toNat ≠ 0 → b ≠ (busAddr s.cfg.regFifoData).toNat) :
    Memory.read (pseudoLoad s).mem b = Memory.read s.mem b := by
  rw [pseudoLoad, read_busWrite_other _ (by simpa using hcommand), read_loadLoop_other _ (by exact hfifo),
    read_busWrite_other _ hcommand]

theorem read_pseudoStart_other (h : b ≠ (busAddr s.cfg.regBitFraming).toNat) :
    Memory.read (pseudoStart s).mem b = Memory.read s.mem b := by
  by_cases ht : isTransceive s = true
  · rw [pseudoStart_transceive ht, read_setb_other _ h]
  · rw [pseudoStart_other ht]

@[simp] theorem pseudoPoll_mem (s : State) : (pseudoPoll s).mem = s.mem := by rw [pseudoPoll, pollLoop_mem, loadCnt_mem]

theorem read_pseudoStop_other (h : b ≠ (busAddr s.cfg.regBitFraming).toNat) :
    Memory.read (pseudoStop s).mem b = Memory.read s.mem b := read_clrb_other _ h

end

/-- Line 2 delivers the enable mask last to the enable register. -/
theorem read_pseudoPrepare_ien (hirq : (busAddr s.cfg.regIen).toNat ≠ (busAddr s.cfg.regIrq).toNat)
    (hlevel : (busAddr s.cfg.regIen).toNat ≠ (busAddr s.cfg.regFifoLevel).toNat) :
    Memory.read (pseudoPrepare s).mem (busAddr s.cfg.regIen).toNat = some (s.ien ||| s.cfg.ienOr) := by
  rw [pseudoPrepare, read_setb_other _ (by exact hlevel), read_clrb_other _ (by exact hirq), read_busWrite_same]

/-- Line 3 delivers the command last to the command register. -/
theorem read_pseudoLoad_command (s : State) :
    Memory.read (pseudoLoad s).mem (busAddr s.cfg.regCommand).toNat = some s.cmd := by
  simp only [pseudoLoad, loadLoop_cfg, loadLoop_cmd, busWrite_cfg, busWrite_cmd, read_busWrite_same]

/-- The eleven registers of a legal CFG are eleven addresses on the bus (R9, R51). -/
theorem legal_addresses {c : Cfg} (h : c.legal = true) : (c.registers.map fun a => (busAddr a).toNat).Nodup := by
  obtain ⟨_, _, range, distinct, _⟩ := (legal_iff c).1 h
  refine List.Nodup.map_on (fun a ha b hb hab => BitVec.eq_of_toNat_eq ?_) distinct
  have hlt := (range a ha).1
  have hlt' := (range b hb).1
  simp only [busAddr, BitVec.extractLsb'_toNat] at hab
  omega

/-- The writes after the command do not reach the command register. -/
theorem legal_command_address {c : Cfg} (h : c.legal = true) :
    (busAddr c.regCommand).toNat ≠ (busAddr c.regBitFraming).toNat := by
  have distinct := legal_addresses h
  simp only [Cfg.registers, List.map_cons, List.nodup_cons, List.mem_cons, not_or] at distinct
  obtain ⟨⟨_, _, _, _, _, _, _, bitFraming, _⟩, _⟩ := distinct
  exact bitFraming

/-- The other writes of an EXEC do not reach the enable register. -/
theorem legal_ien_address {c : Cfg} (h : c.legal = true) :
    (busAddr c.regIen).toNat ≠ (busAddr c.regIrq).toNat ∧ (busAddr c.regIen).toNat ≠ (busAddr c.regFifoLevel).toNat ∧
    (busAddr c.regIen).toNat ≠ (busAddr c.regCommand).toNat ∧
    (busAddr c.regIen).toNat ≠ (busAddr c.regFifoData).toNat ∧
    (busAddr c.regIen).toNat ≠ (busAddr c.regBitFraming).toNat := by
  have distinct := legal_addresses h
  simp only [Cfg.registers, List.map_cons, List.nodup_cons, List.mem_cons, not_or] at distinct
  obtain ⟨⟨command, _⟩, ⟨irq, _, _, fifoData, fifoLevel, _, bitFraming, _⟩, _⟩ := distinct
  exact ⟨irq, fifoLevel, Ne.symm command, fifoData, bitFraming⟩

/-! ## What an EXEC leaves unchanged -/

section
variable (cmd : Byte) (data : List Byte)

theorem pseudoExec_mem (s : State) : (pseudoExec cmd data s).mem = (pseudoPolled cmd data s).mem := by
  rw [pseudoExec_eq, respondExec_mem, (pseudoResult_frame _).1]

theorem pseudoExec_crc (s : State) :
    (pseudoExec cmd data s).crcL = s.crcL ∧ (pseudoExec cmd data s).crcH = s.crcH := by
  obtain ⟨_, _, hcrcL, hcrcH⟩ := pseudoResult_frame (pseudoPolled cmd data s)
  have same := sameRegisters_pseudoPolled cmd data s
  rw [pseudoExec_eq, respondExec_crcL, respondExec_crcH]
  exact ⟨hcrcL.trans same.crcL, hcrcH.trans same.crcH⟩

theorem pseudoExec_err_of_exhausted (h : (pseudoExec cmd data s).cnt = 0) : (pseudoExec cmd data s).err = s.err := by
  rw [pseudoExec_eq, respondExec_cnt, (pseudoResult_frame _).2.1] at h
  rw [pseudoExec_eq, respondExec_err, pseudoResult_exhausted h]
  exact (sameRegisters_pseudoPolled cmd data s).err

theorem pseudoExec_out (k : Nat) (hk : (pseudoExec cmd data s).olen.toNat ≤ k) :
    (pseudoExec cmd data s).outBuf[k]? = s.outBuf[k]? := by
  have same := sameRegisters_pseudoPolled cmd data s
  rw [pseudoExec_eq] at hk ⊢
  rw [respondExec_outBuf, pseudoResult_out same.olen k hk, same.outBuf, acceptExec_outBuf]

theorem pseudoExec_notReceived (hl : s.cfg.legal = true)
    (h : (pseudoExec cmd data s).status = s.cfg.stErr ∨ cmd ≠ s.cfg.cmdTransceive) :
    (pseudoExec cmd data s).lvl = s.lvl ∧ (pseudoExec cmd data s).dcnt = s.dcnt ∧
      (pseudoExec cmd data s).outBuf = s.outBuf := by
  have same := sameRegisters_pseudoPolled cmd data s
  have hcfg : (pseudoPolled cmd data s).cfg = s.cfg := same.cfg
  have hcmd : (pseudoPolled cmd data s).cmd = cmd := same.cmd
  rw [pseudoExec_eq] at h ⊢
  obtain ⟨hlvl, hdcnt, hout⟩ := pseudoResult_notReceived (s := pseudoPolled cmd data s) (by rwa [hcfg])
    (by rwa [hcfg, hcmd])
  rw [respondExec_lvl, respondExec_dcnt, respondExec_outBuf]
  exact ⟨hlvl.trans same.lvl, hdcnt.trans same.dcnt, hout.trans same.outBuf⟩

end

/-! ## The register space after a request -/

@[simp] theorem pseudoPrepare_cfg (s : State) : (pseudoPrepare s).cfg = s.cfg := (sameRegisters_prepared s).cfg

@[simp] theorem pseudoLoad_cfg (s : State) : (pseudoLoad s).cfg = s.cfg :=
  ((keptByTransfers_sameRegisters s).pseudoLoad (sameRegisters_refl s)).cfg

@[simp] theorem pseudoStart_cfg (s : State) : (pseudoStart s).cfg = s.cfg :=
  ((keptByTransfers_sameRegisters s).pseudoStart (sameRegisters_refl s)).cfg

@[simp] theorem pseudoPoll_cfg (s : State) : (pseudoPoll s).cfg = s.cfg :=
  ((keptByTransfers_sameRegisters s).pseudoPoll (sameRegisters_refl s)).cfg

/-- After the load only the bit-framing register is written (R52). -/
theorem read_pseudoPolled (cmd : Byte) (data : List Byte) {b : Nat} (h : b ≠ (busAddr s.cfg.regBitFraming).toNat) :
    Memory.read (pseudoPolled cmd data s).mem b =
      Memory.read (pseudoLoad (pseudoPrepare (acceptExec cmd data s))).mem b := by
  rw [pseudoPolled, read_pseudoStop_other (by simpa using h), pseudoPoll_mem, read_pseudoStart_other (by simpa using h)]

/-- A request whose LEN is not 0 has data. -/
theorem data_ne_nil_of_len (data : List Byte) (h : (BitVec.ofNat 8 data.length).toNat ≠ 0) : data ≠ [] :=
  fun he => h (by rw [he]; rfl)

theorem read_pseudoExec_other (cmd : Byte) (data : List Byte) {b : Nat} (hien : b ≠ (busAddr s.cfg.regIen).toNat)
    (hirq : b ≠ (busAddr s.cfg.regIrq).toNat) (hlevel : b ≠ (busAddr s.cfg.regFifoLevel).toNat)
    (hcommand : b ≠ (busAddr s.cfg.regCommand).toNat) (hframing : b ≠ (busAddr s.cfg.regBitFraming).toNat)
    (hfifo : data ≠ [] → b ≠ (busAddr s.cfg.regFifoData).toNat) :
    Memory.read (pseudoExec cmd data s).mem b = Memory.read s.mem b := by
  rw [pseudoExec_mem, read_pseudoPolled cmd data hframing, read_pseudoLoad_other (by simpa using hcommand)
    (fun hl => by simpa using hfifo (data_ne_nil_of_len data hl)),
    read_pseudoPrepare_other (by simpa using hien) (by simpa using hirq) (by simpa using hlevel), acceptExec_mem]

/-- The command register is not written after the command is issued. -/
theorem read_pseudoExec_command (cmd : Byte) (data : List Byte) (hl : s.cfg.legal = true) :
    Memory.read (pseudoExec cmd data s).mem (busAddr s.cfg.regCommand).toNat = some cmd := by
  have hcfg : (pseudoPrepare (acceptExec cmd data s)).cfg = s.cfg := pseudoPrepare_cfg _
  have hcmd : (pseudoPrepare (acceptExec cmd data s)).cmd = cmd := (sameRegisters_prepared _).cmd
  rw [pseudoExec_mem, read_pseudoPolled cmd data (legal_command_address hl), ← hcfg, read_pseudoLoad_command, hcmd]

/-- The enable register is written once. -/
theorem read_pseudoExec_ien (cmd : Byte) (data : List Byte) (hl : s.cfg.legal = true) :
    Memory.read (pseudoExec cmd data s).mem (busAddr s.cfg.regIen).toNat =
      some ((masksOf s.cfg cmd).1 ||| s.cfg.ienOr) := by
  obtain ⟨hirq, hlevel, hcommand, hfifo, hframing⟩ := legal_ien_address hl
  rw [pseudoExec_mem, read_pseudoPolled cmd data hframing, read_pseudoLoad_other (by simpa using hcommand)
    (fun _ => by simpa using hfifo)]
  exact read_pseudoPrepare_ien (s := acceptExec cmd data s) hirq hlevel

/-! ## The latches of a request -/

/-- What acceptance latches and no phase step writes (R22, R28, R29), and CFG, the inbox and the reset input. -/
structure SameLatches (o u : State) : Prop where
  cfg : u.cfg = o.cfg
  inbox : u.inbox = o.inbox
  resetIn : u.resetIn = o.resetIn
  op : u.op = o.op
  cmd : u.cmd = o.cmd
  len : u.len = o.len
  inBuf : u.inBuf = o.inBuf
  ien : u.ien = o.ien
  wait : u.wait = o.wait

theorem finishRequest_sameLatches (hr : s.resetIn = none) : SameLatches s (finishRequest s) := by
  refine finishRequest_keeps (P := SameLatches s) (fun u _ h => ?_) (by constructor <;> rfl)
  rw [engineStep_of_none (h.resetIn.trans hr)]
  exact {
    cfg := (phaseStep_cfg u).trans h.cfg
    inbox := (phaseStep_inbox u).trans h.inbox
    resetIn := (phaseStep_resetIn u).trans h.resetIn
    op := (phaseStep_op u).trans h.op
    cmd := (phaseStep_cmd u).trans h.cmd
    len := (phaseStep_len u).trans h.len
    inBuf := (phaseStep_inBuf u).trans h.inBuf
    ien := (phaseStep_ien u).trans h.ien
    wait := (phaseStep_wait u).trans h.wait }

/-- A request that runs to its response leaves the engine ready for the next (R125, R142). -/
theorem ready_finishRequest (hr : s.resetIn = none) (hl : s.cfg.legal = true) : (finishRequest s).Ready :=
  ⟨finishRequest_phase s, (finishRequest_sameLatches hr).resetIn.trans hr, by rwa [finishRequest_cfg]⟩

/-- IN after a request of at most 255 bytes is loaded: the data, and beyond them what it held (R28). -/
theorem loaded_getElem? (v : Vector Byte 255) (data : List Byte) (h : data.length ≤ 255) (k : Nat) :
    (loadFrom v 0 data)[k]? = if k < data.length then data[k]? else v[k]? := by
  rw [getElem?_loadFrom]
  refine if_congr ?_ rfl rfl
  omega

theorem len_toNat (data : List Byte) (h : data.length ≤ 255) : (BitVec.ofNat 8 data.length).toNat = data.length := by
  rw [BitVec.toNat_ofNat]
  omega

theorem isRequest_of_isExec {i : Instr} (h : i.isExec = true) : i.isRequest = true := by
  cases i with
  | crc d => rfl
  | busWr a v => cases h
  | busRd a => cases h
  | execIdle d | execCalcCrc d | execTransceive d | execAuthent d | execSoftReset d | execOther cmd d => rfl

/-- Settles O45: the run is the pseudocode of R103, whose lines write only the registers and addresses they name. -/
theorem execFrame : Obligations.ExecFrame := by
  intro i s hi hlen ready
  have ⟨_, hr, hl⟩ := ready
  intro c cmd
  have run : exec i s = .next (finishRequest (acceptExec cmd i.data s)) :=
    (exec_request (isRequest_of_isExec hi) ready).trans (by rw [acceptRequest, if_pos hi])
  have pseudo : finishRequest (acceptExec cmd i.data s) = pseudoExec cmd i.data s :=
    finishRequest_acceptExec cmd i.data hr hl
  have done := ready_finishRequest (s := acceptExec cmd i.data s) hr hl
  have latched := finishRequest_sameLatches (s := acceptExec cmd i.data s) hr
  rw [pseudo] at run done latched
  have crc := pseudoExec_crc cmd i.data s
  refine ⟨_, run, done, latched.cfg, latched.inbox, crc.1, crc.2, latched.op, latched.cmd, ?_, latched.ien, latched.wait,
    fun k => ?_, pseudoExec_out cmd i.data, pseudoExec_err_of_exhausted cmd i.data, pseudoExec_notReceived cmd i.data hl,
    fun a hien hirq hlevel hcommand hframing hfifo => ?_, read_pseudoExec_command cmd i.data hl,
    read_pseudoExec_ien cmd i.data hl⟩
  · rw [latched.len, acceptExec_len, len_toNat _ hlen]
  · rw [latched.inBuf, acceptExec_inBuf, loaded_getElem? _ _ hlen]
  · exact read_pseudoExec_other cmd i.data hien hirq hlevel hcommand hframing hfifo

/-! ## What a CRC leaves unchanged -/

theorem pseudoCrc_mem (data : List Byte) (s : State) :
    (pseudoCrc data s).mem = (pseudoCrcLoad (pseudoCrcPrepare (acceptCrc data s))).mem := by
  rw [pseudoCrc_eq, pseudoCrcPolled, pseudoCrcPoll]
  simp [pseudoCrcResult]

theorem read_pseudoCrcPrepare_other {b : Nat} (hdiv : b ≠ (busAddr s.cfg.regDivIrq).toNat)
    (hlevel : b ≠ (busAddr s.cfg.regFifoLevel).toNat) :
    Memory.read (pseudoCrcPrepare s).mem b = Memory.read s.mem b := by
  rw [pseudoCrcPrepare, read_setb_other _ (by exact hlevel), read_clrb_other _ hdiv]

theorem read_pseudoCrcLoad_other {b : Nat} (hcommand : b ≠ (busAddr s.cfg.regCommand).toNat)
    (hfifo : s.len.toNat ≠ 0 → b ≠ (busAddr s.cfg.regFifoData).toNat) :
    Memory.read (pseudoCrcLoad s).mem b = Memory.read s.mem b := by
  rw [pseudoCrcLoad, read_busWrite_other _ (by simpa using hcommand), read_loadLoop_other _ hfifo]

/-- Line d delivers CalcCRC last to the command register. -/
theorem read_pseudoCrcLoad_command (s : State) :
    Memory.read (pseudoCrcLoad s).mem (busAddr s.cfg.regCommand).toNat = some s.cfg.cmdCalcCrc := by
  simp only [pseudoCrcLoad, loadLoop_cfg, read_busWrite_same]

@[simp] theorem pseudoCrcPrepare_cfg (s : State) : (pseudoCrcPrepare s).cfg = s.cfg := (sameRegisters_crcPrepared s).cfg

theorem read_pseudoCrc_other (data : List Byte) {b : Nat} (hdiv : b ≠ (busAddr s.cfg.regDivIrq).toNat)
    (hlevel : b ≠ (busAddr s.cfg.regFifoLevel).toNat) (hcommand : b ≠ (busAddr s.cfg.regCommand).toNat)
    (hfifo : data ≠ [] → b ≠ (busAddr s.cfg.regFifoData).toNat) :
    Memory.read (pseudoCrc data s).mem b = Memory.read s.mem b := by
  rw [pseudoCrc_mem, read_pseudoCrcLoad_other (by simpa using hcommand)
    (fun hl => by simpa using hfifo (data_ne_nil_of_len data hl)),
    read_pseudoCrcPrepare_other (by simpa using hdiv) (by simpa using hlevel), acceptCrc_mem]

theorem read_pseudoCrc_command (data : List Byte) (s : State) :
    Memory.read (pseudoCrc data s).mem (busAddr s.cfg.regCommand).toNat = some s.cfg.cmdCalcCrc := by
  have hcfg : (pseudoCrcPrepare (acceptCrc data s)).cfg = s.cfg := pseudoCrcPrepare_cfg _
  rw [pseudoCrc_mem, ← hcfg, read_pseudoCrcLoad_command]

/-- A CRC writes no result register of an EXEC (R135). -/
theorem pseudoCrc_frame (data : List Byte) (s : State) :
    (pseudoCrc data s).status = s.status ∧ (pseudoCrc data s).olen = s.olen ∧ (pseudoCrc data s).vb = s.vb ∧
      (pseudoCrc data s).bitLen = s.bitLen ∧ (pseudoCrc data s).outBuf = s.outBuf ∧
      (pseudoCrc data s).err = s.err ∧ (pseudoCrc data s).lvl = s.lvl ∧ (pseudoCrc data s).dcnt = s.dcnt := by
  have same := sameRegisters_pseudoCrcPolled data s
  simp [pseudoCrc_eq, pseudoCrcResult, same.status, same.olen, same.vb, same.bitLen, same.outBuf, same.err, same.lvl,
    same.dcnt]

/-- Settles O46: the run is the pseudocode of R134, whose lines write only the registers and addresses they name. -/
theorem crcFrame : Obligations.CrcFrame := by
  intro d s hlen ready
  have ⟨_, hr, hl⟩ := ready
  have run := exec_request (i := .crc d) rfl ready
  have accept : acceptRequest (.crc d) s = acceptCrc d s := rfl
  have pseudo : finishRequest (acceptCrc d s) = pseudoCrc d s := finishRequest_acceptCrc d hr hl
  have done := ready_finishRequest (s := acceptCrc d s) hr hl
  have latched := finishRequest_sameLatches (s := acceptCrc d s) hr
  rw [accept, pseudo] at run
  rw [pseudo] at done latched
  obtain ⟨status, olen, vb, bitLen, outBuf, err, lvl, dcnt⟩ := pseudoCrc_frame d s
  refine ⟨_, run, done, latched.cfg, latched.inbox, status, olen, vb, bitLen, outBuf, err, lvl, dcnt, latched.op,
    latched.cmd, ?_, latched.ien, latched.wait, fun k => ?_, fun a => read_pseudoCrc_other d, read_pseudoCrc_command d s⟩
  · rw [latched.len, acceptCrc_len, len_toNat _ hlen]
  · rw [latched.inBuf, acceptCrc_inBuf, loaded_getElem? _ _ hlen]

end Sys2Proof.Machine
end

section
/-! PROOFS. The sequencer phase by phase (O20, O21, O22, O29), the reset (O11, O12) and the step in IDLE (O14, O17). -/

namespace Sys2Proof.Machine

variable {s : State}

/-! ## The reset -/

theorem registersReset_resetEngine (s : State) : (resetEngine s).RegistersReset := by
  unfold State.RegistersReset
  simp [resetEngine, State.reset, Op.code]

/-- Settles O11: both states are written out register by register. -/
theorem resetLeavesTheTable : Obligations.ResetLeavesTheTable :=
  ⟨registersReset_resetEngine State.reset, rfl, fun s => ⟨registersReset_resetEngine s, rfl⟩⟩

/-- Settles O12: the reset takes the place of the step, and `resetEngine` writes the registers only. -/
theorem resetInAnyPhase : Obligations.ResetInAnyPhase := by
  intro s hl hr
  exact ⟨resetEngine s, step_settle (fetch_reset hl hr), registersReset_resetEngine s, ⟨rfl, rfl, hl⟩, rfl, rfl, rfl,
    rfl, rfl, rfl, rfl⟩

/-! ## The step in IDLE -/

/-- Settles O14: `fetch` decodes the first item of the inbox. -/
theorem stepRunsDecodedInstruction : Obligations.StepRunsDecodedInstruction := by
  intro s bytes rest i more hl hr hp
  refine ⟨fun hin hd => step_run ?_, fun hin hd => step_run ?_⟩
  · rw [fetch_idle hl hr hp, fetchIdle_request hin, hd]; rfl
  · rw [fetch_idle hl hr hp, fetchIdle_access hin, hd]; rfl

/-- Fewer bytes than a header are only the beginning of a frame (R71). -/
theorem decodeRequest_header (c : Cfg) {bytes : List Byte} (h : bytes.length < 3) :
    decodeRequest c bytes = .incomplete := by
  match bytes with
  | [] | [_] | [_, _] => rfl
  | _ :: _ :: _ :: _ => simp at h; omega

/-- A ready engine that finds nothing whole to take stays as it is. -/
theorem step_of_settle_tick (ready : s.Ready) (h : fetchIdle s = .settle (tick s)) : step s = .next s := by
  obtain ⟨hp, hr, hl⟩ := ready
  rw [tick_of_none hr] at h
  exact step_settle ((fetch_idle hl (by rw [hr]; exact nofun) hp).trans h)

theorem step_of_incomplete {bytes : List Byte} {rest : List Inbound} (ready : s.Ready)
    (hin : s.inbox = .request bytes :: rest) (hd : decodeRequest s.cfg bytes = .incomplete) : step s = .next s :=
  step_of_settle_tick ready (by rw [fetchIdle_request hin, hd]; rfl)

/-- Settles O17: an empty inbox and an incomplete frame settle in the same state. -/
theorem nothingPresentedNothingHappens : Obligations.NothingPresentedNothingHappens := by
  intro s bytes rest ready
  refine ⟨fun hin => step_of_settle_tick ready (fetchIdle_nil hin),
    fun hin hlen => step_of_incomplete ready hin (decodeRequest_header _ hlen), ?_⟩
  rintro op cmd len body rfl hlen hin
  exact step_of_incomplete ready hin (decodeRequest_short _ op cmd len body hlen)

/-! ## The successor of every phase -/

/-- A phase that branches leads to the phase of its condition. -/
theorem goto_branch_phase {c d : Prop} [Decidable c] [Decidable d] {p q : Phase} (h : c ↔ d) :
    (goto (if c then p else q) s).phase = if d then p else q := if_congr h rfl rfl

theorem len_ne_zero_iff : s.len ≠ 0 ↔ s.len.toNat > 0 := by
  rw [gt_iff_lt, Nat.pos_iff_ne_zero]
  exact not_congr ⟨fun h => congrArg BitVec.toNat h, fun h => BitVec.eq_of_toNat_eq h⟩

theorem phaseXCmdWr_phase (s : State) :
    (phaseXCmdWr s).phase =
      if (phaseXCmdWr s).cmd = (phaseXCmdWr s).cfg.cmdTransceive then .xStartRd else .xPoll := by
  rw [phaseXCmdWr]
  by_cases ht : isTransceive s = true
  · rw [if_pos ht]
    exact (if_pos (isTransceive_iff.1 ht)).symm
  · rw [if_neg ht]
    exact (if_neg (mt isTransceive_iff.2 ht)).symm

theorem phaseXErrRd_phase (s : State) :
    (phaseXErrRd s).phase =
      if (readErr s).err &&& s.cfg.errMask ≠ 0 then .xDone
      else if s.cmd = s.cfg.cmdTransceive then .xLevelRd else .xDone :=
  if_congr chipError_iff rfl (if_congr isTransceive_iff rfl rfl)

/-- Settles O20: the branches test the register values after the step's own writes. -/
theorem phaseSuccessors : Obligations.PhaseSuccessors := by
  refine ⟨fun s cmd d => ⟨rfl, rfl, fun _ => rfl⟩, ?_⟩
  rintro s t rfl
  cases hp : s.phase <;> simp only [phaseStep, hp]
  case xIdleWr => exact goto_branch_phase len_ne_zero_iff
  case xLoad => exact goto_branch_phase moreToLoad_iff
  case xCmdWr => exact phaseXCmdWr_phase s
  case xPoll => exact goto_branch_phase pollExit_iff
  case xStopWr => exact goto_branch_phase exhausted_iff
  case xErrRd => exact phaseXErrRd_phase s
  case xDrain => exact goto_branch_phase moreToDrain_iff
  case cFlushWr => exact goto_branch_phase len_ne_zero_iff
  case cLoad => exact goto_branch_phase moreToLoad_iff
  case cPoll => exact goto_branch_phase crcPollExit_iff
  all_goals rfl

/-! ## The transaction of every phase -/

theorem phaseXCmdWr_bus (s : State) : (phaseXCmdWr s).bus = s.bus ++ [.write (busAddr s.cfg.regCommand) s.cmd] := by
  rw [phaseXCmdWr]
  split <;> rfl

/-- Settles O21: each phase is one of the two bus primitives or none. -/
theorem phaseTransactions : Obligations.PhaseTransactions := by
  intro s
  cases hp : s.phase <;> simp only [phaseStep, hp]
  case xCmdWr => exact phaseXCmdWr_bus s
  case idle | xDone | cDone => exact (List.append_nil _).symm
  all_goals rfl

/-! ## Acceptance -/

theorem masksOf_authent (c : Cfg) : masksOf c c.cmdAuthent = (c.ienAuth, c.waitAuth) := if_pos rfl

theorem masksOf_transceive {c : Cfg} (h : c.legal = true) : masksOf c c.cmdTransceive = (c.ienTrx, c.waitTrx) := by
  rw [masksOf, if_neg (legal_commands h).symm, if_pos rfl]

theorem masksOf_plain {c : Cfg} {cmd : Byte} (h : plainCommand c cmd) : masksOf c cmd = (c.ienOther, c.waitOther) := by
  rw [masksOf, if_neg h.1, if_neg h.2]

/-- Settles O22: the masks by command, IN by `loaded_getElem?`, the latches phase by phase. -/
theorem acceptanceLatchesTheRequest : Obligations.AcceptanceLatchesTheRequest := by
  refine ⟨fun s cmd d hl hlen => ?_, fun s => by simp, by decide⟩
  have loaded (k : Nat) (hk : k < d.length) : (loadFrom s.inBuf 0 d)[k]? = d[k]? := by
    rw [loaded_getElem? _ _ hlen, if_pos hk]
  have kept (k : Nat) (hk : d.length ≤ k) : (loadFrom s.inBuf 0 d)[k]? = s.inBuf[k]? := by
    rw [loaded_getElem? _ _ hlen, if_neg (Nat.not_lt.2 hk)]
  refine ⟨⟨rfl, rfl, len_toNat d hlen, loaded, kept, ?_, ?_, fun h => ?_⟩,
    rfl, rfl, len_toNat d hlen, loaded, kept, rfl, rfl⟩
  · rintro rfl; simp [masksOf_authent]
  · rintro rfl; simp [masksOf_transceive hl]
  · simp [masksOf_plain h]

/-! ## One pass of the byte loops -/

theorem inByte_spec (h : s.idx.toNat < s.len.toNat) : s.inBuf[s.idx.toNat]? = some (inByte s) := by
  have hl := s.len.isLt
  have hi : s.idx.toNat < 255 := by omega
  rw [inByte, Vector.getElem?_eq_getElem hi, Option.getD_some]

/-- Settles O29: `loadByte` and `drainByte` with the index below its bound, so that it does not wrap. -/
theorem oneByteLoadedOrDrained : Obligations.OneByteLoadedOrDrained := by
  refine fun s => ⟨fun hp hi => ⟨inByte s, inByte_spec hi, ?_⟩, fun hp hi hd => ?_⟩
  · have next := idx_succ hi s.len.isLt
    obtain hp | hp := hp <;> rw [phaseStep, hp] <;> exact ⟨rfl, next⟩
  · have hi16 : s.idx.toNat < 16 := Nat.lt_of_lt_of_le hi hd
    have next : (drainByte s).idx.toNat = s.idx.toNat + 1 := idx_succ hi16 (by decide)
    have out (k : Nat) : (phaseStep s).outBuf[k]? = (s.outBuf.setIfInBounds s.idx.toNat (answer s))[k]? := by
      rw [phaseStep, hp]; rfl
    refine ⟨by rw [phaseStep, hp]; rfl, ?_, fun k hk => ?_, ?_, by rw [phaseStep, hp]; exact next⟩
    · rw [out, Vector.getElem?_setIfInBounds_self_of_lt hi16]
    · rw [out, Vector.getElem?_setIfInBounds_ne hk.symm]
    · rw [phaseStep, hp]
      exact (drainByte_olen_eq_idx (by omega)).trans next

end Sys2Proof.Machine
end

section
/-! PROOFS. The bus: the wire bytes of a transaction (O7), BUS.WR (O43) and the whole trace of an EXEC (O33). -/

namespace Sys2Proof.Machine

variable {s : State}

/-! ## The wire bytes -/

/-- R80's address byte of a write: bit 7 and bit 0 are 0, and the six address bits stand between them. -/
theorem addrByteWr_eq (a : BusAddr) : addrByteWr (a.setWidth 8) = (0#1 ++ a ++ 0#1 : BitVec 8) := by
  revert a; decide

/-- R81's address byte of a read: bit 7 is 1 and bit 0 is 0, and the six address bits stand between them. -/
theorem addrByteRd_eq (a : BusAddr) : addrByteRd (a.setWidth 8) = (1#1 ++ a ++ 0#1 : BitVec 8) := by
  revert a; decide

theorem addrOfByte_append (b : BitVec 1) (a : BusAddr) : addrOfByte (b ++ a ++ 0#1) = a := by
  ext i hi
  rw [addrOfByte, BitVec.getElem_extractLsb', BitVec.getLsbD_append, if_neg (by omega), BitVec.getLsbD_append,
    if_pos (by omega), Nat.add_sub_cancel_left, BitVec.getLsbD_eq_getElem hi]

/-- Bit 0 of an address byte is 0 (R86). -/
theorem getLsbD_zero_append (b : BitVec 1) (a : BusAddr) : (b ++ a ++ 0#1 : BitVec 8).getLsbD 0 = false := by
  rw [BitVec.getLsbD_append]; rfl

/-- Bit 7 of an address byte tells a read from a write (R80, R81). -/
theorem getLsbD_seven_append (b : BitVec 1) (a : BusAddr) : (b ++ a ++ 0#1 : BitVec 8).getLsbD 7 = b.getLsbD 0 := by
  rw [BitVec.getLsbD_append, if_neg (by decide), BitVec.getLsbD_append, if_neg (by decide)]

/-- The decoder reads a write from its address byte and data byte. -/
theorem decodeBus_addressByte_write (a : BusAddr) (v : Byte) (rest : List Byte) :
    decodeBus ((0#1 ++ a ++ 0#1 : BitVec 8) :: v :: rest) = .instr (.busWr a v) rest := by
  rw [decodeBus_write v rest (getLsbD_zero_append _ a) (getLsbD_seven_append _ a), addrOfByte_append]

/-- The decoder reads a read from its address byte alone. -/
theorem decodeBus_addressByte_read (a : BusAddr) (rest : List Byte) :
    decodeBus ((1#1 ++ a ++ 0#1 : BitVec 8) :: rest) = .instr (.busRd a) rest := by
  rw [decodeBus_read rest (getLsbD_zero_append _ a) (getLsbD_seven_append _ a), addrOfByte_append]

/-- Settles O7: the address byte is written out bit by bit, and its end bits tell the decoder what it is. -/
theorem wireBytesOfTransactions : Obligations.WireBytesOfTransactions := by
  intro a v rest
  have wr : (Txn.write a v).wire = [(0#1 ++ a ++ 0#1 : BitVec 8), v] := congrArg (· :: [v]) (addrByteWr_eq a)
  have rd : (Txn.read a v).wire = [(1#1 ++ a ++ 0#1 : BitVec 8)] := congrArg (· :: []) (addrByteRd_eq a)
  refine ⟨wr, rd, ?_, ?_⟩
  · rw [wr]; exact decodeBus_addressByte_write a v rest
  · rw [rd]; exact decodeBus_addressByte_read a rest

/-! ## BUS.WR -/

/-- Settles O43: the meaning of BUS.WR is `busWrite`, at the address that survives the widening. -/
theorem busWriteResult : Obligations.BusWriteResult := by
  intro a v s
  refine ⟨?_, rfl, fun k => Memory.read_write s.mem a.toNat k v⟩
  rw [exec_busWr, busWrite, busAddr_setWidth]

/-! ## The transactions of the loops -/

/-- The load loop writes the rest of the data to the FIFO, in order (R110, R138). -/
theorem loadLoop_bus (data : List Byte) (hlen : s.len.toNat = s.idx.toNat + data.length)
    (hin : ∀ k < data.length, s.inBuf[s.idx.toNat + k]? = data[k]?) :
    (loadLoop data.length s).bus = s.bus ++ data.map (Txn.write (busAddr s.cfg.regFifoData)) := by
  induction data generalizing s with
  | nil => rw [List.length_nil, loadLoop, List.map_nil, List.append_nil]
  | cons b rest ih =>
    rw [List.length_cons] at hlen
    have hi : s.idx.toNat < s.len.toNat := by omega
    have next : (loadByte s).idx.toNat = s.idx.toNat + 1 := idx_succ hi s.len.isLt
    have first : inByte s = b := by
      have h0 := hin 0 (Nat.succ_pos _)
      rw [Nat.add_zero, inByte_spec hi, List.getElem?_cons_zero] at h0
      exact Option.some.inj h0
    have tail : ∀ k < rest.length, (loadByte s).inBuf[(loadByte s).idx.toNat + k]? = rest[k]? := fun k hk => by
      rw [next, loadByte_inBuf, Nat.add_right_comm]
      exact hin (k + 1) (Nat.succ_lt_succ hk)
    rw [List.length_cons, loadLoop_more hi, ih (by rw [next, loadByte_len]; omega) tail, loadByte_bus, first,
      List.append_assoc]
    rfl

/-- The poll loop reads REG_IRQ only, and at least once when it has a budget (R114, R115). -/
theorem pollLoop_bus (n : Nat) : ∃ polls : List Byte,
    (pollLoop n s).bus = s.bus ++ polls.map (Txn.read (busAddr s.cfg.regIrq)) ∧ (n ≠ 0 → polls ≠ []) := by
  induction n generalizing s with
  | zero => exact ⟨[], (List.append_nil _).symm, fun h => absurd rfl h⟩
  | succ n ih =>
    rw [pollLoop]
    split
    · exact ⟨[answer s], rfl, nofun⟩
    · obtain ⟨polls, hbus, _⟩ := ih (s := pollOnce s.cfg.regIrq s)
      exact ⟨answer s :: polls, by rw [hbus, pollOnce_bus, List.append_assoc]; rfl, nofun⟩

/-- A drain pass appends the byte it reads to the payload, as long as OUT holds it (R124). -/
theorem payload_drainByte (ho : s.olen.toNat = s.idx.toNat) (hi : s.idx.toNat < 16) :
    payload (drainByte s) = payload s ++ [answer s] := by
  have holen : (drainByte s).olen.toNat = s.idx.toNat + 1 :=
    (drainByte_olen_eq_idx (by omega)).trans (idx_succ hi (by decide))
  rw [payload, holen, payload, ho, drainByte_outBuf, Vector.toList_setIfInBounds,
    List.take_add_one, List.take_set_of_le (Nat.le_refl _), List.getElem?_set_self (by simpa using hi)]
  rfl

/-- The drain loop reads the FIFO once per byte that it appends to the payload, in order (R124). -/
theorem drainLoop_bus (n : Nat) (hn : s.dcnt.toNat = s.idx.toNat + n) (hd : s.dcnt.toNat ≤ 16)
    (ho : s.olen.toNat = s.idx.toNat) : ∃ bytes : List Byte,
    (drainLoop n s).bus = s.bus ++ bytes.map (Txn.read (busAddr s.cfg.regFifoData)) ∧
      payload (drainLoop n s) = payload s ++ bytes := by
  induction n generalizing s with
  | zero => exact ⟨[], (List.append_nil _).symm, (List.append_nil _).symm⟩
  | succ n ih =>
    have hi : s.idx.toNat < s.dcnt.toNat := by omega
    have next : (drainByte s).idx.toNat = s.idx.toNat + 1 := idx_succ hi (by omega)
    obtain ⟨bytes, hbus, hpay⟩ := ih (s := drainByte s) (by rw [next, drainByte_dcnt]; omega) hd
      (drainByte_olen_eq_idx (by omega))
    rw [drainLoop_more hi]
    refine ⟨answer s :: bytes, ?_, ?_⟩
    · rw [hbus, drainByte_bus, List.append_assoc]; rfl
    · rw [hpay, payload_drainByte ho (by omega), List.append_assoc]; rfl

/-! ## The transactions of the lines of R103 -/

@[simp] theorem pseudoPrepare_cmd (s : State) : (pseudoPrepare s).cmd = s.cmd := (sameRegisters_prepared s).cmd

@[simp] theorem pseudoLoad_cmd (s : State) : (pseudoLoad s).cmd = s.cmd :=
  ((keptByTransfers_sameRegisters s).pseudoLoad (sameRegisters_refl s)).cmd

/-- Line 2 of R103 on the bus. -/
theorem pseudoPrepare_bus (s : State) : ∃ a b : Byte, (pseudoPrepare s).bus = s.bus ++
    [Txn.write (busAddr s.cfg.regIen) (s.ien ||| s.cfg.ienOr),
     Txn.read (busAddr s.cfg.regIrq) a, Txn.write (busAddr s.cfg.regIrq) (a &&& ~~~s.cfg.irqClear),
     Txn.read (busAddr s.cfg.regFifoLevel) b, Txn.write (busAddr s.cfg.regFifoLevel) (b ||| s.cfg.fifoFlush)] := by
  let s1 := busWrite s.cfg.regIen (s.ien ||| s.cfg.ienOr) s
  refine ⟨answer s1, answer (clrb s.cfg.regIrq s.cfg.irqClear s1), ?_⟩
  simp [pseudoPrepare, setBits, clearBits, s1]

/-- Line 3 of R103 on the bus, when the data stand in IN and none is loaded yet. -/
theorem pseudoLoad_bus {data : List Byte} (hi : s.idx = 0) (hlen : s.len.toNat = data.length)
    (hin : ∀ k < data.length, s.inBuf[k]? = data[k]?) : (pseudoLoad s).bus = s.bus
      ++ [Txn.write (busAddr s.cfg.regCommand) s.cfg.cmdIdle] ++ data.map (Txn.write (busAddr s.cfg.regFifoData))
      ++ [Txn.write (busAddr s.cfg.regCommand) s.cmd] := by
  have loaded := loadLoop_bus (s := busWrite s.cfg.regCommand s.cfg.cmdIdle s) data (by simp [hi, hlen])
    (by simpa [hi] using hin)
  simp [pseudoLoad, hlen, loaded]

/-- Line 4 of R103 on the bus. -/
theorem pseudoStart_bus (s : State) : ∃ g : Byte, (pseudoStart s).bus = s.bus ++
    if s.cmd = s.cfg.cmdTransceive
    then [Txn.read (busAddr s.cfg.regBitFraming) g, Txn.write (busAddr s.cfg.regBitFraming) (g ||| s.cfg.startSend)]
    else [] := by
  refine ⟨answer s, ?_⟩
  by_cases ht : isTransceive s = true
  · rw [pseudoStart_transceive ht, if_pos (isTransceive_iff.1 ht), setb_bus, List.append_assoc]; rfl
  · rw [pseudoStart_other ht, if_neg (mt isTransceive_iff.2 ht), List.append_nil]

/-- Line 5 of R103 on the bus. -/
theorem pseudoPoll_bus (hl : s.cfg.legal = true) : ∃ polls : List Byte, polls ≠ [] ∧
    (pseudoPoll s).bus = s.bus ++ polls.map (Txn.read (busAddr s.cfg.regIrq)) := by
  obtain ⟨polls, hbus, hne⟩ := pollLoop_bus (s := loadCnt s.cfg.pollBudget s) s.cfg.pollBudget.toNat
  exact ⟨polls, hne (mt (cnt_eq_zero _).2 (legal_budgets hl).1), hbus⟩

/-- Line 6 of R103 on the bus. -/
theorem pseudoStop_bus (s : State) : ∃ f : Byte, (pseudoStop s).bus = s.bus ++
    [Txn.read (busAddr s.cfg.regBitFraming) f, Txn.write (busAddr s.cfg.regBitFraming) (f &&& ~~~s.cfg.startSend)] :=
  ⟨answer s, by rw [pseudoStop, clrb_bus, List.append_assoc]; rfl⟩

@[simp] theorem pseudoReceive_cnt (s : State) : (pseudoReceive s).cnt = s.cnt := drainLoop_cnt _
@[simp] theorem pseudoReceive_err (s : State) : (pseudoReceive s).err = s.err := drainLoop_err _
@[simp] theorem pseudoReceive_lvl (s : State) : (pseudoReceive s).lvl = answer s := drainLoop_lvl _

/-- The receive branch of line 7 of R103 on the bus: VB is taken from the byte read from the last-bits register, and the
payload is what the FIFO answered. -/
theorem pseudoReceive_bus (hl : s.cfg.legal = true) (ho : s.olen = 0) : ∃ w : Byte,
    (pseudoReceive s).bus = s.bus
      ++ ([Txn.read (busAddr s.cfg.regFifoLevel) (pseudoReceive s).lvl, Txn.read (busAddr s.cfg.regControl) w]
      ++ (payload (pseudoReceive s)).map (Txn.read (busAddr s.cfg.regFifoData))) ∧
    (pseudoReceive s).vb = validBitsOf s.cfg.lastBitsLsb w := by
  let u := readLast (readLevel s)
  have hmax := legal_maxLen hl
  have hd : u.dcnt.toNat ≤ 16 := Nat.le_trans (drainCount_bounds (answer s) hmax.1).2 hmax.2
  have empty : payload u = [] := by simp [payload, u, ho]
  obtain ⟨bytes, hbus, hpay⟩ : ∃ bytes : List Byte,
      (pseudoReceive s).bus = u.bus ++ bytes.map (Txn.read (busAddr u.cfg.regFifoData)) ∧
        payload (pseudoReceive s) = payload u ++ bytes :=
    drainLoop_bus u.dcnt.toNat (by simp [u]) hd (by simp [ho])
  refine ⟨answer (readLevel s), ?_, drainLoop_vb _⟩
  rw [hbus, hpay, empty, pseudoReceive_lvl]
  simp [u]

/-- Line 7 of R103 on the bus, told from the registers it leaves: the error register unless exhausted, and for a
Transceive without a masked error the receive branch. -/
theorem pseudoResult_bus (hl : s.cfg.legal = true) (ho : s.olen = 0) {t : State} (ht : pseudoResult s = t) :
    ∃ w : Byte, t.bus = s.bus
      ++ (if t.cnt = 0 then [] else [Txn.read (busAddr s.cfg.regError) t.err])
      ++ (if t.cnt ≠ 0 ∧ t.err &&& s.cfg.errMask = 0 ∧ s.cmd = s.cfg.cmdTransceive
          then [Txn.read (busAddr s.cfg.regFifoLevel) t.lvl, Txn.read (busAddr s.cfg.regControl) w]
            ++ (payload t).map (Txn.read (busAddr s.cfg.regFifoData)) else []) ∧
      (t.cnt ≠ 0 ∧ t.err &&& s.cfg.errMask = 0 ∧ s.cmd = s.cfg.cmdTransceive →
        t.vb = validBitsOf s.cfg.lastBitsLsb w) := by
  subst ht
  by_cases hc : s.cnt = 0
  · rw [pseudoResult_exhausted hc]
    refine ⟨0, ?_, fun h => absurd hc h.1⟩
    rw [if_pos hc, if_neg (fun h => h.1 hc), List.append_nil, List.append_nil]
  · rw [pseudoResult_classify hc]
    obtain ⟨hx, he⟩ | ⟨_, htr, he⟩ | ⟨hx, htr, he⟩ := pseudoClassify_cases s <;> rw [he]
    · have masked : ¬(readErr s).err &&& s.cfg.errMask = 0 := chipError_iff.1 hx
      refine ⟨0, ?_, fun h => absurd h.2.1 masked⟩
      rw [if_neg (by exact hc), if_neg (fun h => masked h.2.1), List.append_nil]
      rfl
    · have other : ¬s.cmd = s.cfg.cmdTransceive := mt isTransceive_iff.2 htr
      refine ⟨0, ?_, fun h => absurd h.2.2 other⟩
      rw [if_neg (by exact hc), if_neg (fun h => other h.2.2), List.append_nil]
      rfl
    · let u := setStatus (statusAfterErr (readErr s)) (readErr s)
      obtain ⟨w, hbus, hvb⟩ := pseudoReceive_bus (s := u) hl ho
      have hcnt : (pseudoReceive u).cnt ≠ 0 := by rw [pseudoReceive_cnt]; exact hc
      have unmasked : (pseudoReceive u).err &&& s.cfg.errMask = 0 := by
        rw [pseudoReceive_err]; exact not_not.1 (mt chipError_iff.2 hx)
      refine ⟨w, ?_, fun _ => hvb⟩
      rw [if_neg hcnt, if_pos ⟨hcnt, unmasked, isTransceive_iff.1 htr⟩, hbus, pseudoReceive_err]
      rfl

/-! ## The whole trace of an EXEC -/

/-- Only line 8 of R103 responds. -/
theorem pseudoPolled_responses (cmd : Byte) (data : List Byte) (s : State) :
    (pseudoPolled cmd data s).responses = s.responses := by
  have k : KeptByTransfers fun u => u.responses = s.responses :=
    ⟨fun _ _ _ h => h, fun _ _ h => h, fun _ h => h, fun _ _ h => h, fun _ _ h => h⟩
  exact k.pseudoStop (k.pseudoPoll (k.pseudoStart (k.pseudoLoad (k.pseudoPrepare (acceptExec_responses s cmd data)))))

theorem pseudoResult_responses (s : State) : (pseudoResult s).responses = s.responses :=
  pseudoResult_keeps (P := fun u => u.responses = s.responses) (fun _ h => h) (fun _ _ h => h) (fun _ h => h)
    (fun _ h => h) (fun _ h => h) rfl

/-- Lines 2 to 6 of R103 on the bus. -/
theorem pseudoPolled_bus (cmd : Byte) {data : List Byte} (hlen : data.length ≤ 255) (hl : s.cfg.legal = true) :
    ∃ (a b g f : Byte) (polls : List Byte), polls ≠ [] ∧ (pseudoPolled cmd data s).bus = s.bus
      ++ [Txn.write (busAddr s.cfg.regIen) ((masksOf s.cfg cmd).1 ||| s.cfg.ienOr),
          Txn.read (busAddr s.cfg.regIrq) a, Txn.write (busAddr s.cfg.regIrq) (a &&& ~~~s.cfg.irqClear),
          Txn.read (busAddr s.cfg.regFifoLevel) b, Txn.write (busAddr s.cfg.regFifoLevel) (b ||| s.cfg.fifoFlush),
          Txn.write (busAddr s.cfg.regCommand) s.cfg.cmdIdle]
      ++ data.map (Txn.write (busAddr s.cfg.regFifoData))
      ++ [Txn.write (busAddr s.cfg.regCommand) cmd]
      ++ (if cmd = s.cfg.cmdTransceive
          then [Txn.read (busAddr s.cfg.regBitFraming) g, Txn.write (busAddr s.cfg.regBitFraming) (g ||| s.cfg.startSend)]
          else [])
      ++ polls.map (Txn.read (busAddr s.cfg.regIrq))
      ++ [Txn.read (busAddr s.cfg.regBitFraming) f,
          Txn.write (busAddr s.cfg.regBitFraming) (f &&& ~~~s.cfg.startSend)] := by
  let accepted := acceptExec cmd data s
  let prepared := pseudoPrepare accepted
  have loaded (k : Nat) (hk : k < data.length) : prepared.inBuf[k]? = data[k]? :=
    (loaded_getElem? s.inBuf data hlen k).trans (if_pos hk)
  obtain ⟨a, b, hprepare⟩ := pseudoPrepare_bus accepted
  have hload := pseudoLoad_bus (s := prepared) rfl (len_toNat data hlen) loaded
  obtain ⟨g, hstart⟩ := pseudoStart_bus (pseudoLoad prepared)
  obtain ⟨polls, hne, hpoll⟩ := pseudoPoll_bus (s := pseudoStart (pseudoLoad prepared))
    (by simpa [prepared, accepted] using hl)
  obtain ⟨f, hstop⟩ := pseudoStop_bus (pseudoPoll (pseudoStart (pseudoLoad prepared)))
  refine ⟨a, b, g, f, polls, hne, ?_⟩
  rw [pseudoPolled, hstop, hpoll, hstart, hload, hprepare]
  simp [prepared, accepted]

/-- Settles O33: the run is the pseudocode of R103, and its lines make these transactions one after another. -/
theorem execBusTrace : Obligations.ExecBusTrace := by
  intro i s hi hlen ready
  have ⟨_, hr, hl⟩ := ready
  intro c cmd
  have same := sameRegisters_pseudoPolled cmd i.data s
  have hcfg : (pseudoPolled cmd i.data s).cfg = c := same.cfg
  have hcmd : (pseudoPolled cmd i.data s).cmd = cmd := same.cmd
  obtain ⟨u, hu⟩ : ∃ u, pseudoResult (pseudoPolled cmd i.data s) = u := ⟨_, rfl⟩
  have run : exec i s = .next (respondExec u) := by
    rw [exec_request (isRequest_of_isExec hi) ready, acceptRequest, if_pos hi,
      finishRequest_acceptExec cmd i.data hr hl, pseudoExec_eq, hu]
  have responses : u.responses = s.responses := by
    rw [← hu, pseudoResult_responses, pseudoPolled_responses]
  obtain ⟨a, b, g, f, polls, hne, hpolled⟩ := pseudoPolled_bus (s := s) cmd hlen hl
  obtain ⟨w, hresult, hvb⟩ := pseudoResult_bus (by rw [hcfg]; exact hl) same.olen hu
  rw [hcfg, hcmd] at hvb
  rw [hcfg, hcmd, hpolled] at hresult
  exact ⟨respondExec u, a, b, g, f, w, polls, run, hne, hresult, hvb,
    congrArg (· ++ [Response.exec u.status (payload u) u.vb u.bitLen]) responses⟩

end Sys2Proof.Machine
end

section
/-! PROOFS. The encodings: request frames (O1, O2, O4, O5), the requester's bus accesses (O3, O4, O6), the response frames
(O8), and the step on what the decoder reads (O15, O16, O18). -/

namespace Sys2Proof.Machine

variable {s : State}

/-! ## The EXEC rows as one row with its command byte (R83, R84) -/

theorem encode_of_isExec (c : Cfg) {i : Instr} (h : i.isExec = true) :
    encode c i = encodeFrame 0x00 (commandOf c i) i.data := by
  cases i with
  | crc d => cases h
  | busWr a v => cases h
  | busRd a => cases h
  | execIdle d | execCalcCrc d | execTransceive d | execAuthent d | execSoftReset d | execOther cmd d => rfl

/-- `EXEC.OTHER` is selected when no named row is (R84). -/
theorem selectExec_eq_execOther_iff (c : Cfg) (cmd : Byte) (data : List Byte) :
    selectExec c cmd data = .execOther cmd data ↔ cmd ≠ c.cmdIdle ∧ cmd ≠ c.cmdCalcCrc ∧ cmd ≠ c.cmdTransceive ∧
      cmd ≠ c.cmdAuthent ∧ cmd ≠ c.cmdSoftReset := by
  unfold selectExec
  split_ifs <;> simp_all

/-- An EXEC term is well formed when its data fit LEN and its command byte selects it (R74, R83, R84, log 14). -/
theorem wellFormed_exec_iff (c : Cfg) {i : Instr} (h : i.isExec = true) :
    i.wellFormed c = true ↔ i.data.length ≤ 255 ∧ selectExec c (commandOf c i) i.data = i := by
  cases i with
  | crc d => cases h
  | busWr a v => cases h
  | busRd a => cases h
  | execOther cmd d =>
    simp only [commandOf, Instr.data, selectExec_eq_execOther_iff]
    simp only [Instr.wellFormed, dataFits, Bool.and_eq_true, decide_eq_true_eq, and_assoc]
  | execIdle d | execCalcCrc d | execTransceive d | execAuthent d | execSoftReset d =>
    simp only [Instr.wellFormed, dataFits, Bool.and_eq_true, decide_eq_true_eq, commandOf, Instr.data, selectExec]
    split_ifs <;> simp_all

/-- The row that a command byte selects is an EXEC with that byte and that data. -/
theorem selectExec_spec (c : Cfg) (cmd : Byte) (data : List Byte) :
    (selectExec c cmd data).isExec = true ∧ commandOf c (selectExec c cmd data) = cmd ∧
      (selectExec c cmd data).data = data := by
  unfold selectExec
  split_ifs <;> exact ⟨rfl, by simp_all [commandOf], rfl⟩

theorem selectExec_wellFormed (c : Cfg) (cmd : Byte) {data : List Byte} (h : data.length ≤ 255) :
    (selectExec c cmd data).wellFormed c = true := by
  obtain ⟨hexec, hcmd, hdata⟩ := selectExec_spec c cmd data
  rw [wellFormed_exec_iff c hexec, hcmd, hdata]
  exact ⟨h, rfl⟩

theorem encode_selectExec (c : Cfg) (cmd : Byte) (data : List Byte) :
    encode c (selectExec c cmd data) = encodeFrame 0x00 cmd data := by
  obtain ⟨hexec, hcmd, hdata⟩ := selectExec_spec c cmd data
  rw [encode_of_isExec c hexec, hcmd, hdata]

/-- A request is an EXEC or a CRC (R5). -/
theorem isExec_or_crc_of_isRequest {i : Instr} (h : i.isRequest = true) : i.isExec = true ∨ ∃ d, i = .crc d := by
  cases i with
  | crc d => exact .inr ⟨d, rfl⟩
  | busWr a v => cases h
  | busRd a => cases h
  | execIdle d | execCalcCrc d | execTransceive d | execAuthent d | execSoftReset d | execOther cmd d => exact .inl rfl

theorem wellFormed_crc_iff (c : Cfg) (d : List Byte) : (Instr.crc d).wellFormed c = true ↔ d.length ≤ 255 :=
  decide_eq_true_iff

/-! ## Request frames -/

/-- The decoder takes a written frame apart again, as long as the data fit LEN (R71, R74). -/
theorem decodeRequest_encodeFrame (c : Cfg) (op cmd : Byte) {data : List Byte} (rest : List Byte)
    (h : data.length ≤ 255) : decodeRequest c (encodeFrame op cmd data ++ rest) = decodeBody c op cmd data rest :=
  decodeRequest_frame c op cmd _ data rest (len_toNat data h).symm

/-- Settles O2: the frame is taken apart, and the command byte of a well-formed EXEC selects its row again. -/
theorem decodeOfEncodedRequest : Obligations.DecodeOfEncodedRequest := by
  intro c i rest hi hwf
  obtain hexec | ⟨d, rfl⟩ := isExec_or_crc_of_isRequest hi
  · obtain ⟨hlen, hselect⟩ := (wellFormed_exec_iff c hexec).1 hwf
    rw [encode_of_isExec c hexec, decodeRequest_encodeFrame c _ _ rest hlen, decodeBody_exec, hselect]
  · exact decodeRequest_encodeFrame c _ _ rest ((wellFormed_crc_iff c d).1 hwf)

/-- A whole frame is one written frame with what follows it; anything less is incomplete (R70, R71). -/
theorem decodeRequest_cases (c : Cfg) (bytes : List Byte) :
    decodeRequest c bytes = .incomplete ∨ ∃ op cmd data rest, data.length ≤ 255 ∧
      bytes = encodeFrame op cmd data ++ rest ∧ decodeRequest c bytes = decodeBody c op cmd data rest := by
  match bytes with
  | [] | [_] | [_, _] => exact .inl rfl
  | op :: cmd :: len :: body =>
    by_cases h : body.length < len.toNat
    · exact .inl (decodeRequest_short c op cmd len body h)
    · have hlt := len.isLt
      have hlen : (body.take len.toNat).length = len.toNat := List.length_take_of_le (Nat.not_lt.1 h)
      have frame : op :: cmd :: len :: body =
          encodeFrame op cmd (body.take len.toNat) ++ body.drop len.toNat := by
        rw [encodeFrame, hlen, BitVec.ofNat_toNat, BitVec.setWidth_eq]
        simp
      exact .inr ⟨op, cmd, _, _, by omega, frame, if_neg h⟩

/-- The body of a frame is legal in two ways: OP is EXEC, or it is CRC and CMD is 0 (R72, R73, R85). -/
theorem decodeBody_instr {c : Cfg} {op cmd : Byte} {data rest more : List Byte} {i : Instr}
    (h : decodeBody c op cmd data rest = .instr i more) :
    more = rest ∧ (op = 0x00 ∧ i = selectExec c cmd data ∨ op = 0x01 ∧ cmd = 0x00 ∧ i = .crc data) := by
  unfold decodeBody at h
  split_ifs at h with h0 h1 h2
  · cases h; exact ⟨rfl, .inl ⟨h0, rfl⟩⟩
  · cases h; exact ⟨rfl, .inr ⟨h1, h2, rfl⟩⟩

/-- What the request decoder accepts is the frame of a well-formed request. -/
theorem encode_of_decodeRequest {c : Cfg} {bytes rest : List Byte} {i : Instr}
    (h : decodeRequest c bytes = .instr i rest) :
    i.isRequest = true ∧ i.wellFormed c = true ∧ encode c i ++ rest = bytes := by
  obtain hinc | ⟨op, cmd, data, rest', hlen, rfl, hbody⟩ := decodeRequest_cases c bytes
  · rw [hinc] at h; cases h
  · obtain ⟨rfl, ⟨rfl, rfl⟩ | ⟨rfl, rfl, rfl⟩⟩ := decodeBody_instr (hbody.symm.trans h)
    · exact ⟨isRequest_of_isExec (selectExec_spec c cmd data).1, selectExec_wellFormed c cmd hlen,
        by rw [encode_selectExec]⟩
    · exact ⟨rfl, (wellFormed_crc_iff c data).2 hlen, rfl⟩

/-! ## Bus accesses -/

theorem encode_busWr (c : Cfg) (a : BusAddr) (v : Byte) : encode c (.busWr a v) = [(0#1 ++ a ++ 0#1 : BitVec 8), v] :=
  congrArg (· :: [v]) (addrByteWr_eq a)

theorem encode_busRd (c : Cfg) (a : BusAddr) : encode c (.busRd a) = [(1#1 ++ a ++ 0#1 : BitVec 8)] :=
  congrArg (· :: []) (addrByteRd_eq a)

/-- Settles O3: the address bytes are those of `decodeBus_addressByte_write` and `decodeBus_addressByte_read`. -/
theorem decodeOfEncodedBusAccess : Obligations.DecodeOfEncodedBusAccess := by
  intro c i rest hi
  cases i with
  | busWr a v => rw [encode_busWr]; exact decodeBus_addressByte_write a v rest
  | busRd a => rw [encode_busRd]; exact decodeBus_addressByte_read a rest
  | crc d => cases hi
  | execIdle d | execCalcCrc d | execTransceive d | execAuthent d | execSoftReset d | execOther cmd d => cases hi

/-- An address byte that is not reserved is its read bit, its six address bits and a 0 (R80, R81, R86). -/
theorem addressByte_eq {ab : Byte} (h : ab.getLsbD 0 = false) :
    ab = (BitVec.ofBool (ab.getLsbD 7) ++ addrOfByte ab ++ 0#1 : BitVec 8) := by
  revert ab; decide

/-- The address byte of a write alone is only the beginning of the access (R95). -/
theorem decodeBus_writeWithoutData {ab : Byte} (h0 : ab.getLsbD 0 = false) (h7 : ab.getLsbD 7 = false) :
    decodeBus [ab] = .incomplete := by
  unfold decodeBus
  exact (if_neg (by rw [h0]; decide)).trans (if_neg (by rw [h7]; decide))

/-- What the bus decoder accepts is a read at its address byte, or a write at its address byte and data byte. -/
theorem decodeBus_instr {bytes rest : List Byte} {i : Instr} (h : decodeBus bytes = .instr i rest) :
    (∃ ab, bytes = ab :: rest ∧ ab.getLsbD 0 = false ∧ ab.getLsbD 7 = true ∧ i = .busRd (addrOfByte ab)) ∨
    ∃ ab v, bytes = ab :: v :: rest ∧ ab.getLsbD 0 = false ∧ ab.getLsbD 7 = false ∧ i = .busWr (addrOfByte ab) v := by
  match bytes with
  | [] => cases h
  | ab :: more =>
    cases h0 : ab.getLsbD 0 with
    | true => rw [decodeBus_reserved more h0] at h; cases h
    | false =>
      cases h7 : ab.getLsbD 7 with
      | true => rw [decodeBus_read more h0 h7] at h; cases h; exact .inl ⟨ab, rfl, h0, h7, rfl⟩
      | false =>
        match more with
        | [] => rw [decodeBus_writeWithoutData h0 h7] at h; cases h
        | v :: more => rw [decodeBus_write v more h0 h7] at h; cases h; exact .inr ⟨ab, v, rfl, h0, h7, rfl⟩

/-- What the bus decoder accepts is the bytes of a bus access. -/
theorem encode_of_decodeBus (c : Cfg) {bytes rest : List Byte} {i : Instr} (h : decodeBus bytes = .instr i rest) :
    i.isRequest = false ∧ encode c i ++ rest = bytes := by
  obtain ⟨ab, rfl, h0, h7, rfl⟩ | ⟨ab, v, rfl, h0, h7, rfl⟩ := decodeBus_instr h
  · have hab := addressByte_eq h0
    rw [h7] at hab
    exact ⟨rfl, by rw [encode_busRd]; exact congrArg (· :: rest) hab.symm⟩
  · have hab := addressByte_eq h0
    rw [h7] at hab
    exact ⟨rfl, by rw [encode_busWr]; exact congrArg (· :: v :: rest) hab.symm⟩

/-- Settles O4: `encode_of_decodeRequest` and `encode_of_decodeBus`. -/
theorem encodeOfDecoded : Obligations.EncodeOfDecoded :=
  fun c _ _ _ => ⟨encode_of_decodeRequest, encode_of_decodeBus c⟩

/-! ## The rows by mask and match -/

theorem headerWord_and (op cmd len a b c : Byte) :
    headerWord op cmd len &&& headerWord a b c = headerWord (op &&& a) (cmd &&& b) (len &&& c) :=
  BitVec.and_append.trans (congrArg (· ++ (len &&& c)) BitVec.and_append)

/-- The mask of a row with a fixed command byte keeps OP and CMD. -/
theorem headerWord_mask_cmd (op cmd len : Byte) : headerWord op cmd len &&& 0xFFFF00 = headerWord op cmd 0 := by
  have mask : (0xFFFF00 : BitVec 24) = headerWord (BitVec.allOnes 8) (BitVec.allOnes 8) 0 := by decide
  rw [mask, headerWord_and, BitVec.and_allOnes, BitVec.and_allOnes, BitVec.ofNat_eq_ofNat, BitVec.and_zero]

/-- The mask of `EXEC.OTHER` keeps OP. -/
theorem headerWord_mask_op (op cmd len : Byte) : headerWord op cmd len &&& 0xFF0000 = headerWord op 0 0 := by
  have mask : (0xFF0000 : BitVec 24) = headerWord (BitVec.allOnes 8) 0 0 := by decide
  rw [mask, headerWord_and, BitVec.and_allOnes, BitVec.ofNat_eq_ofNat, BitVec.and_zero, BitVec.and_zero]

/-- The three fields of a header do not overlap (R75). -/
theorem headerWord_inj {op cmd len op' cmd' len' : Byte} :
    headerWord op cmd len = headerWord op' cmd' len' ↔ op = op' ∧ cmd = cmd' ∧ len = len' := by
  refine ⟨fun h => ?_, by rintro ⟨rfl, rfl, rfl⟩; rfl⟩
  have hlen : len = len' := by
    simpa only [headerWord, BitVec.extractLsb'_append_eq_right] using congrArg (BitVec.extractLsb' 0 8) h
  subst hlen
  have hhead : op ++ cmd = op' ++ cmd' := (BitVec.append_left_inj len).1 h
  have hcmd : cmd = cmd' := by
    simpa only [BitVec.extractLsb'_append_eq_right] using congrArg (BitVec.extractLsb' 0 8) hhead
  subst hcmd
  exact ⟨(BitVec.append_left_inj cmd).1 hhead, rfl, rfl⟩

/-- The row of a fixed command byte is selected when OP is EXEC and CMD is that byte. -/
theorem match_cmd_iff (op cmd len x : Byte) :
    headerWord op cmd len &&& 0xFFFF00 = headerWord 0 x 0 ↔ op = 0x00 ∧ cmd = x := by
  rw [headerWord_mask_cmd, headerWord_inj, and_iff_left rfl]

theorem match_other_iff (op cmd len : Byte) : headerWord op cmd len &&& 0xFF0000 = 0x000000 ↔ op = 0x00 := by
  have value : (0x000000 : BitVec 24) = headerWord 0 0 0 := by decide
  rw [headerWord_mask_op, value, headerWord_inj, and_iff_left ⟨rfl, rfl⟩]

theorem match_crc_iff (op cmd len : Byte) :
    headerWord op cmd len &&& 0xFFFF00 = 0x010000 ↔ op = 0x01 ∧ cmd = 0x00 := by
  have value : (0x010000 : BitVec 24) = headerWord 1 0 0 := by decide
  rw [headerWord_mask_cmd, value, headerWord_inj, and_iff_left rfl]

/-- Bits 7 and 0 of an address byte, as the mask of the two bus rows keeps them. -/
theorem endBits_of_mask {ab m : Byte} (h : ab &&& 0x81 = m) :
    ab.getLsbD 0 = m.getLsbD 0 ∧ ab.getLsbD 7 = m.getLsbD 7 := by
  subst h
  simp only [BitVec.getLsbD_and]
  exact ⟨(Bool.and_true _).symm, (Bool.and_true _).symm⟩

/-- Settles O5: each match is a condition on OP and CMD, and `decodeBody` and `selectExec` test the same conditions. -/
theorem rowsFollowMaskAndMatch : Obligations.RowsFollowMaskAndMatch := by
  intro c op cmd len data rest hlen
  refine ⟨?_, by decide, by decide, by decide, by decide, by decide, fun ab v => ⟨fun h => ?_, fun h => ?_⟩⟩
  · simp only [decodeRequest_frame c op cmd len data rest hlen, match_cmd_iff, match_other_iff, match_crc_iff]
    by_cases h0 : op = 0x00
    · subst h0
      simp only [decodeBody_exec, selectExec, true_and, if_true]
      split_ifs <;> rfl
    · simp only [h0, false_and, if_false, decodeBody]
      by_cases h1 : op = 0x01 <;> simp only [h1, true_and, false_and, if_true, if_false]
  · obtain ⟨h0, h7⟩ := endBits_of_mask h
    exact decodeBus_write v rest h0 h7
  · obtain ⟨h0, h7⟩ := endBits_of_mask h
    exact decodeBus_read rest h0 h7

/-- Settles O1: each word and frame is decoded. -/
theorem sampleWordsDecode : Obligations.SampleWordsDecode := by
  unfold Obligations.SampleWordsDecode
  decide

/-! ## The address bytes, bit by bit -/

/-- R80's address byte of any address: its six low bits reach the bus (R51). -/
theorem addrByteWr_eq_append (a : Byte) : addrByteWr a = (0#1 ++ busAddr a ++ 0#1 : BitVec 8) := by
  revert a; decide

/-- R81's address byte of any address. -/
theorem addrByteRd_eq_append (a : Byte) : addrByteRd a = (1#1 ++ busAddr a ++ 0#1 : BitVec 8) := by
  revert a; decide

/-- Settles O6: both address bytes are written out bit by bit, and depend on the address through `busAddr` only. -/
theorem addressBytesBitByBit : Obligations.AddressBytesBitByBit := by
  refine ⟨fun a => ?_, by decide, by decide, by decide, by decide, fun a v => ⟨rfl, rfl⟩, fun a b v s hab => ?_⟩
  · have wr := addrByteWr_eq_append a
    have rd := addrByteRd_eq_append a
    refine ⟨rfl, ?_, ?_, ?_, rfl, ?_, ?_, ?_⟩
    · rw [wr, getLsbD_seven_append]; rfl
    · rw [wr]; exact addrOfByte_append 0#1 (busAddr a)
    · rw [wr, getLsbD_zero_append]
    · rw [rd, getLsbD_seven_append]; rfl
    · rw [rd]; exact addrOfByte_append 1#1 (busAddr a)
    · rw [rd, getLsbD_zero_append]
  · have same : busAddr a = busAddr b := hab
    refine ⟨?_, ?_, ?_, ?_⟩
    · rw [addrByteWr_eq_append, addrByteWr_eq_append, same]
    · rw [addrByteRd_eq_append, addrByteRd_eq_append, same]
    · rw [busWrite, busWrite, same]
    · rw [busRead, busRead, same]

/-! ## Response frames -/

/-- The two bytes of BITLEN in a response are its sign extension (R77). -/
theorem bitLenBytes_toInt (b : BitVec 12) :
    ((b.signExtend 16).extractLsb' 8 8 ++ (b.signExtend 16).extractLsb' 0 8 : BitVec 16).toInt = b.toInt := by
  have whole : ((b.signExtend 16).extractLsb' 8 8 ++ (b.signExtend 16).extractLsb' 0 8 : BitVec 16) =
      b.signExtend 16 :=
    (BitVec.extractLsb'_append_extractLsb'_eq_extractLsb' rfl).trans BitVec.extractLsb'_eq_self
  rw [whole, BitVec.toInt_signExtend_of_le (by decide)]

/-- Settles O8: the frame is written out by definition; its BITLEN bytes are `bitLenBytes_toInt`. -/
theorem responseFramesLayout : Obligations.ResponseFramesLayout := by
  refine ⟨fun st p vb bl hp => ?_, by decide, by decide, fun _ _ => rfl, rfl, rfl⟩
  refine ⟨_, _, _, rfl, ?_, len_toNat p (by omega), bitLenBytes_toInt bl⟩
  simp only [Response.frame, List.length_cons]
  omega

/-! ## The step on what the decoder reads -/

/-- A ready engine acts on the first frame of the request port. -/
theorem fetch_request {bytes : List Byte} {rest : List Inbound} (ready : s.Ready)
    (hin : s.inbox = .request bytes :: rest) :
    fetch s = dispatchDecoded .request rest s (decodeRequest s.cfg bytes) := by
  obtain ⟨hp, hr, hl⟩ := ready
  rw [fetch_idle hl (by rw [hr]; exact nofun) hp, fetchIdle_request hin]

/-- A ready engine acts on the first access presented. -/
theorem fetch_access {bytes : List Byte} {rest : List Inbound} (ready : s.Ready)
    (hin : s.inbox = .access bytes :: rest) : fetch s = dispatchDecoded .access rest s (decodeBus bytes) := by
  obtain ⟨hp, hr, hl⟩ := ready
  rw [fetch_idle hl (by rw [hr]; exact nofun) hp, fetchIdle_access hin]

/-- A rejected frame is taken from the inbox and answered, and nothing else changes (R85, R156). -/
theorem step_of_reject {bytes more : List Byte} {rest : List Inbound} {r : RejectReason} (ready : s.Ready)
    (hin : s.inbox = .request bytes :: rest) (hd : decodeRequest s.cfg bytes = .reject r more) :
    step s = .next { s with inbox := putBack .request more rest, responses := s.responses ++ [.reject r] } := by
  have settled : fetch s = .settle (reject r (tick { s with inbox := putBack .request more rest })) := by
    rw [fetch_request ready hin, hd]; rfl
  rw [step_settle settled, tick_of_none (s := { s with inbox := putBack .request more rest }) ready.resetIn]
  rfl

/-- Settles O16: OP and CMD decide between the two rejects and the legal rows. -/
theorem illegalFrameIsRejected : Obligations.IllegalFrameIsRejected := by
  intro s op cmd len data more rest ready hlen hin
  have frame := decodeRequest_frame s.cfg op cmd len data more hlen
  refine ⟨fun h0 h1 => ?_, ?_, ?_, rfl, rfl⟩
  · exact step_of_reject ready hin (frame.trans (decodeBody_reservedOp s.cfg cmd data more h0 h1))
  · rintro rfl hcmd
    exact step_of_reject ready hin (frame.trans (decodeBody_crcCmd s.cfg data more hcmd))
  · rintro (rfl | ⟨rfl, rfl⟩)
    · exact ⟨_, frame.trans (decodeBody_exec s.cfg cmd data more)⟩
    · exact ⟨_, frame.trans (decodeBody_crc s.cfg data more)⟩

/-- Settles O18: bit 0 is the first thing the bus decoder tests. -/
theorem reservedAddressByteIsRefused : Obligations.ReservedAddressByteIsRefused := by
  intro s ab more rest ready hin h0
  refine step_refuse ?_
  rw [fetch_access ready hin, decodeBus_reserved more h0]
  rfl

/-! ## Table words -/

/-- The bytes of a table word: a header with `LEN` data bytes, or an address byte and for a write a data byte. -/
theorem tableBytes_cases {nbits w : Nat} {bytes : List Byte} (h : tableBytes nbits w = some bytes) :
    (nbits = 24 ∧ ∃ op cmd len : Byte, bytes = op :: cmd :: len :: List.replicate len.toNat 0) ∨
    (nbits = 8 ∧ ∃ ab : Byte, bytes = if ab.getLsbD 7 then [ab] else [ab, 0]) := by
  unfold tableBytes at h
  split at h
  · exact .inl ⟨rfl, _, _, _, (Option.some.inj h).symm⟩
  · exact .inr ⟨rfl, _, (Option.some.inj h).symm⟩
  · cases h

/-- The decoder reads a table word that is a request to its end. -/
theorem rest_of_headerBytes {c : Cfg} {op cmd len : Byte} {rest : List Byte} {i : Instr}
    (h : decodeRequest c (op :: cmd :: len :: List.replicate len.toNat 0) = .instr i rest) : rest = [] := by
  rw [← List.append_nil (List.replicate len.toNat 0),
    decodeRequest_frame c op cmd len _ [] List.length_replicate] at h
  exact (decodeBody_instr h).1

/-- The decoder reads a table word that is an address byte to its end. -/
theorem rest_of_accessBytes {ab : Byte} {rest : List Byte} {i : Instr}
    (h : decodeBus (if ab.getLsbD 7 then [ab] else [ab, 0]) = .instr i rest) : rest = [] := by
  obtain ⟨ab', hbytes, _, h7, _⟩ | ⟨ab', v, hbytes, _⟩ := decodeBus_instr h <;> split at hbytes <;> cases hbytes
  · rfl
  · contradiction
  · rfl

/-- A table word that has an instruction is read to its end by the decoder of its row (R83). -/
theorem decodeTableWord_cases {nbits w : Nat} {i : Instr} (h : decodeTableWord nbits w = some i) :
    ∃ bytes, tableBytes nbits w = some bytes ∧
      ((nbits ≠ 8 ∧ decodeRequest Cfg.default bytes = .instr i []) ∨ (nbits = 8 ∧ decodeBus bytes = .instr i [])) := by
  unfold decodeTableWord at h
  split at h
  · cases h
  · rename_i bytes hbytes
    split at h
    · rename_i rest hread
      cases h
      refine ⟨bytes, hbytes, ?_⟩
      obtain ⟨rfl, op, cmd, len, rfl⟩ | ⟨rfl, ab, rfl⟩ := tableBytes_cases hbytes
      · rw [if_neg (by decide)] at hread
        cases rest_of_headerBytes hread
        exact .inl ⟨by decide, hread⟩
      · rw [if_pos rfl] at hread
        cases rest_of_accessBytes hread
        exact .inr ⟨rfl, hread⟩
    · cases h

/-- Settles O15: the word is presented first and read to its end, so O14 gives the step, and nothing of it is put back. -/
theorem fetchWordRunsItsInstruction : Obligations.FetchWordRunsItsInstruction := by
  intro s nbits w i hcfg hw
  have hl : (s.withFetchWord nbits w).cfg.legal = true := by
    have legal : Cfg.default.legal = true := by decide
    exact hcfg ▸ legal
  obtain ⟨bytes, hbytes, ⟨hn, hread⟩ | ⟨hn, hread⟩⟩ := decodeTableWord_cases hw
  · have hin : (s.withFetchWord nbits w).inbox = .request bytes :: s.inbox := by
      simp only [State.withFetchWord, presentWord, hbytes, if_neg hn]
    exact (stepRunsDecodedInstruction _ bytes s.inbox i [] hl nofun rfl).1 hin (hcfg ▸ hread)
  · have hin : (s.withFetchWord nbits w).inbox = .access bytes :: s.inbox := by
      simp only [State.withFetchWord, presentWord, hbytes, if_pos hn]
    exact (stepRunsDecodedInstruction _ bytes s.inbox i [] hl nofun rfl).2 hin hread

end Sys2Proof.Machine
end

section
/-! PROOFS. The lines of requests and what the assembler reads from them (O9). -/

namespace Sys2Proof.Machine

/-! ## Two-digit hexadecimal bytes (log 18) -/

theorem hexValue_hexDigit : ∀ n < 16, hexValue (hexDigit n) = some n := by decide

theorem hexDigit_ne_comma : ∀ n < 16, hexDigit n ≠ ',' := by decide

theorem byte_digits_lt (b : Byte) : b.toNat / 16 < 16 ∧ b.toNat % 16 < 16 := by
  have := b.isLt
  omega

theorem readByte_digits (b : Byte) : readByte (hexDigit (b.toNat / 16)) (hexDigit (b.toNat % 16)) = some b := by
  obtain ⟨hi, lo⟩ := byte_digits_lt b
  simp only [readByte, hexValue_hexDigit _ hi, hexValue_hexDigit _ lo, Nat.div_add_mod, BitVec.ofNat_toNat,
    BitVec.setWidth_eq]

theorem readData_dataText (data : List Byte) : readData (dataText data) = some data := by
  induction data with
  | nil => rfl
  | cons b rest ih =>
    have line : dataText (b :: rest) =
        ' ' :: hexDigit (b.toNat / 16) :: hexDigit (b.toNat % 16) :: dataText rest := rfl
    simp only [line, readData, readByte_digits, ih]

/-! ## Command words -/

/-- `w` is a way to write the command byte `cmd` before the comma of an EXEC line (R88). -/
def CommandWord (c : Cfg) (w : List Char) (cmd : Byte) : Prop := ',' ∉ w ∧ readCommand c w = some cmd

theorem commandWord_idle (c : Cfg) : CommandWord c nameIdle c.cmdIdle := ⟨by decide, rfl⟩
theorem commandWord_calcCrc (c : Cfg) : CommandWord c nameCalcCrc c.cmdCalcCrc := ⟨by decide, rfl⟩
theorem commandWord_transceive (c : Cfg) : CommandWord c nameTransceive c.cmdTransceive := ⟨by decide, rfl⟩
theorem commandWord_authent (c : Cfg) : CommandWord c nameAuthent c.cmdAuthent := ⟨by decide, rfl⟩
theorem commandWord_softReset (c : Cfg) : CommandWord c nameSoftReset c.cmdSoftReset := ⟨by decide, rfl⟩

/-- A number has two digits, and each name has more letters. -/
theorem commandWord_byteText (c : Cfg) (cmd : Byte) : CommandWord c (byteText cmd) cmd := by
  obtain ⟨hi, lo⟩ := byte_digits_lt cmd
  refine ⟨?_, ?_⟩
  · simp [byteText, (hexDigit_ne_comma _ hi).symm, (hexDigit_ne_comma _ lo).symm]
  · have notName (n : List Char) (hn : n.length ≠ 2) : byteText cmd ≠ n := fun h => hn (by rw [← h]; rfl)
    unfold readCommand
    rw [if_neg (notName _ (by decide)), if_neg (notName _ (by decide)), if_neg (notName _ (by decide)),
      if_neg (notName _ (by decide)), if_neg (notName _ (by decide))]
    exact readByte_digits cmd

/-- The line of an EXEC request is its command word and its data (R88). -/
theorem requestText_of_isExec (c : Cfg) {i : Instr} (h : i.isExec = true) :
    ∃ w, requestText i = some (wordExec ++ w ++ ',' :: dataText i.data) ∧ CommandWord c w (commandOf c i) := by
  cases i with
  | execIdle d => exact ⟨_, rfl, commandWord_idle c⟩
  | execCalcCrc d => exact ⟨_, rfl, commandWord_calcCrc c⟩
  | execTransceive d => exact ⟨_, rfl, commandWord_transceive c⟩
  | execAuthent d => exact ⟨_, rfl, commandWord_authent c⟩
  | execSoftReset d => exact ⟨_, rfl, commandWord_softReset c⟩
  | execOther cmd d => exact ⟨_, rfl, commandWord_byteText c cmd⟩
  | crc d => cases h
  | busWr a v => cases h
  | busRd a => cases h

/-! ## Lines -/

theorem afterPrefix_append (p line : List Char) : afterPrefix p (p ++ line) = some line := by
  induction p with
  | nil => rfl
  | cons ch p ih => rw [List.cons_append, afterPrefix, if_pos rfl, ih]

/-- The comma ends the command word, and the data run to the end of the line. -/
theorem readExec_line {c : Cfg} {w : List Char} {cmd : Byte} (h : CommandWord c w cmd) (d : List Byte) :
    readExec c (w ++ ',' :: dataText d) = some (selectExec c cmd d) := by
  obtain ⟨hcomma, hread⟩ := h
  have letters : ∀ ch ∈ w, decide (ch ≠ ',') = true := fun ch hch => decide_eq_true fun h => hcomma (h ▸ hch)
  have before : (w ++ ',' :: dataText d).takeWhile (· ≠ ',') = w := by
    rw [List.takeWhile_append_of_pos letters]
    exact List.append_nil w
  have after : (w ++ ',' :: dataText d).dropWhile (· ≠ ',') = ',' :: dataText d := by
    rw [List.dropWhile_append_of_pos letters]
    rfl
  simp only [readExec, before, after, hread, readData_dataText, Option.map_some]

theorem assemble_exec {c : Cfg} {w : List Char} {cmd : Byte} (h : CommandWord c w cmd) (d : List Byte) :
    assemble c (wordExec ++ w ++ ',' :: dataText d) = some (selectExec c cmd d) := by
  rw [List.append_assoc]
  simp only [assemble, afterPrefix_append, readExec_line h]

theorem assemble_crc (c : Cfg) (d : List Byte) : assemble c (wordCrc ++ dataText d) = some (.crc d) := by
  have noExec : afterPrefix wordExec (wordCrc ++ dataText d) = none := rfl
  simp only [assemble, noExec, afterPrefix_append, readData_dataText, Option.map_some]

theorem assemble_transceive (c : Cfg) (d : List Byte) :
    assemble c (nameTransceive ++ dataText d) = some (selectExec c c.cmdTransceive d) := by
  have noExec : afterPrefix wordExec (nameTransceive ++ dataText d) = none := rfl
  have noCrc : afterPrefix wordCrc (nameTransceive ++ dataText d) = none := rfl
  simp only [assemble, noExec, noCrc, afterPrefix_append, readData_dataText, Option.map_some]

theorem assemble_authent (c : Cfg) (d : List Byte) :
    assemble c (nameAuthent ++ dataText d) = some (selectExec c c.cmdAuthent d) := by
  have noExec : afterPrefix wordExec (nameAuthent ++ dataText d) = none := rfl
  have noCrc : afterPrefix wordCrc (nameAuthent ++ dataText d) = none := rfl
  have noTransceive : afterPrefix nameTransceive (nameAuthent ++ dataText d) = none := rfl
  simp only [assemble, noExec, noCrc, noTransceive, afterPrefix_append, readData_dataText, Option.map_some]

theorem assemble_requestText {c : Cfg} {i : Instr} {line : List Char} (hwf : i.wellFormed c = true)
    (h : requestText i = some line) : assemble c line = some i := by
  by_cases hexec : i.isExec = true
  · obtain ⟨w, htext, hw⟩ := requestText_of_isExec c hexec
    cases htext.symm.trans h
    rw [assemble_exec hw, ((wellFormed_exec_iff c hexec).1 hwf).2]
  · cases i with
    | crc d => cases h; exact assemble_crc c d
    | busWr a v => cases h
    | busRd a => cases h
    | execIdle d | execCalcCrc d | execTransceive d | execAuthent d | execSoftReset d | execOther cmd d =>
      exact absurd rfl hexec

/-- Settles O9: a command word selects the row of its byte, as the pseudo-instruction of the same name does (R89). -/
theorem assemblerReadsRequestLines : Obligations.AssemblerReadsRequestLines := by
  intro c i line hwf h
  refine ⟨assemble_requestText hwf h, fun d => ⟨?_, ?_⟩⟩
  · rw [assemble_transceive, assemble_exec (commandWord_transceive c)]
  · rw [assemble_authent, assemble_exec (commandWord_authent c)]

end Sys2Proof.Machine
end

section
/-! PROOFS. The EXEC rows differ only through the comparisons with Authenticate and Transceive (O39). -/

namespace Sys2Proof.Machine

variable {s : State}

/-- The meaning of every EXEC row is that of `EXEC.OTHER` with its command byte (R84, R103). -/
theorem exec_eq_execOther {i : Instr} (h : i.isExec = true) :
    exec i s = exec (.execOther (commandOf s.cfg i) i.data) s := by
  cases i with
  | crc d => cases h
  | busWr a v => cases h
  | busRd a => cases h
  | execIdle d | execCalcCrc d | execTransceive d | execAuthent d | execSoftReset d | execOther cmd d => rfl

/-- In a ready state `EXEC.OTHER` is the pseudocode of R103. -/
theorem exec_execOther_pseudo (cmd : Byte) (d : List Byte) (ready : s.Ready) :
    exec (.execOther cmd d) s = .next (pseudoExec cmd d s) := by
  have ⟨_, hr, hl⟩ := ready
  rw [exec_request rfl ready, ← finishRequest_acceptExec cmd d hr hl]
  rfl

theorem pseudoExec_bus (cmd : Byte) (d : List Byte) (s : State) :
    (pseudoExec cmd d s).bus = (pseudoResult (pseudoPolled cmd d s)).bus := by
  rw [pseudoExec_eq, respondExec, respond_bus]

/-- An EXEC emits one response. -/
theorem pseudoExec_responses (cmd : Byte) (d : List Byte) (s : State) :
    ∃ r, (pseudoExec cmd d s).responses = s.responses ++ [r] :=
  ⟨_, by rw [pseudoExec_eq, respondExec, respond_responses, pseudoResult_responses, pseudoPolled_responses]⟩

/-! ## Two runs with different command bytes

The runs start in the origins `o₁` and `o₂` and stand in `s₁` and `s₂`. They agree on every register but CMD and have made
the same transactions since their origins. -/

/-- What an EXEC depends on besides its command: the state without CMD and without the history of the bus. -/
def withoutCommand (s : State) : State := { s with cmd := 0, bus := [], mem := [] }

/-- Two runs of one EXEC that differ in the command byte, and in what it left on the bus before the origins. -/
structure SameButCommand (o₁ o₂ s₁ s₂ : State) : Prop where
  same : withoutCommand s₂ = withoutCommand s₁
  trace : SameTrace o₁ o₂ s₁ s₂

section
variable {o₁ o₂ s₁ s₂ : State} (h : SameButCommand o₁ o₂ s₁ s₂)
include h

/-- What does not read CMD or the history of the bus is the same in both runs. -/
theorem SameButCommand.congr {β : Type} (f : State → β) (hf : ∀ u, f (withoutCommand u) = f u) : f s₂ = f s₁ := by
  rw [← hf s₂, h.same, hf s₁]

theorem SameButCommand.cfg : s₂.cfg = s₁.cfg := h.congr State.cfg fun _ => rfl
theorem SameButCommand.len : s₂.len = s₁.len := h.congr State.len fun _ => rfl
theorem SameButCommand.ien : s₂.ien = s₁.ien := h.congr State.ien fun _ => rfl
theorem SameButCommand.cnt : s₂.cnt = s₁.cnt := h.congr State.cnt fun _ => rfl
theorem SameButCommand.t : s₂.t = s₁.t := h.congr State.t fun _ => rfl
theorem SameButCommand.answer : answer s₂ = answer s₁ := h.congr Machine.answer fun _ => rfl
theorem SameButCommand.inByte : inByte s₂ = inByte s₁ := h.congr Machine.inByte fun _ => rfl
theorem SameButCommand.moreToLoad : moreToLoad s₂ = moreToLoad s₁ := h.congr Machine.moreToLoad fun _ => rfl
theorem SameButCommand.pollExit : pollExit s₂ = pollExit s₁ := h.congr Machine.pollExit fun _ => rfl
theorem SameButCommand.chipError : chipError s₂ = chipError s₁ := h.congr Machine.chipError fun _ => rfl
theorem SameButCommand.statusAfterErr : statusAfterErr s₂ = statusAfterErr s₁ := h.congr Machine.statusAfterErr fun _ => rfl

/-- Line 8 of R103 answers the same in both runs. -/
theorem SameButCommand.responses : (respondExec s₂).responses = (respondExec s₁).responses :=
  h.congr (fun u => (respondExec u).responses) fun _ => rfl

/-! ### The shared operations keep the agreement -/

theorem SameButCommand.busWrite (a v : Byte) : SameButCommand o₁ o₂ (busWrite a v s₁) (busWrite a v s₂) :=
  ⟨h.same, h.trace.snoc (.write (busAddr a) v) rfl rfl⟩

/-- From the command write on, which may differ, the runs are compared from new origins. -/
theorem SameButCommand.busWrite_other (a v w : Byte) :
    SameButCommand (Machine.busWrite a v s₁) (Machine.busWrite a w s₂) (Machine.busWrite a v s₁)
      (Machine.busWrite a w s₂) :=
  ⟨h.same, [], (List.append_nil _).symm, (List.append_nil _).symm⟩

theorem SameButCommand.readToT (a : Byte) : SameButCommand o₁ o₂ (readToT a s₁) (readToT a s₂) :=
  ⟨h.congr (fun u => withoutCommand (Machine.readToT a u)) fun _ => rfl,
    h.trace.snoc (.read (busAddr a) (Machine.answer s₁)) rfl (by rw [readToT_bus, h.answer])⟩

theorem SameButCommand.pollOnce (a : Byte) : SameButCommand o₁ o₂ (pollOnce a s₁) (pollOnce a s₂) :=
  ⟨h.congr (fun u => withoutCommand (Machine.pollOnce a u)) fun _ => rfl,
    h.trace.snoc (.read (busAddr a) (Machine.answer s₁)) rfl (by rw [pollOnce_bus, h.answer])⟩

theorem SameButCommand.loadCnt (b : BitVec 16) : SameButCommand o₁ o₂ (loadCnt b s₁) (loadCnt b s₂) :=
  ⟨h.congr (fun u => withoutCommand (Machine.loadCnt b u)) fun _ => rfl, h.trace⟩

theorem SameButCommand.setStatus (st : BitVec 2) : SameButCommand o₁ o₂ (setStatus st s₁) (setStatus st s₂) :=
  ⟨h.congr (fun u => withoutCommand (Machine.setStatus st u)) fun _ => rfl, h.trace⟩

theorem SameButCommand.loadByte : SameButCommand o₁ o₂ (loadByte s₁) (loadByte s₂) :=
  ⟨h.congr (fun u => withoutCommand (Machine.loadByte u)) fun _ => rfl,
    h.trace.snoc (.write (busAddr s₁.cfg.regFifoData) (Machine.inByte s₁)) rfl
      (by rw [loadByte_bus, h.cfg, h.inByte])⟩

theorem SameButCommand.readErr : SameButCommand o₁ o₂ (readErr s₁) (readErr s₂) :=
  ⟨h.congr (fun u => withoutCommand (Machine.readErr u)) fun _ => rfl,
    h.trace.snoc (.read (busAddr s₁.cfg.regError) (Machine.answer s₁)) rfl
      (by rw [readErr_bus, h.cfg, h.answer])⟩

theorem SameButCommand.setb (a m : Byte) : SameButCommand o₁ o₂ (setb a m s₁) (setb a m s₂) := by
  have read := h.readToT a
  simp only [Machine.setb, read.t]
  exact read.busWrite _ _

theorem SameButCommand.clrb (a m : Byte) : SameButCommand o₁ o₂ (clrb a m s₁) (clrb a m s₂) := by
  have read := h.readToT a
  simp only [Machine.clrb, read.t]
  exact read.busWrite _ _

theorem SameButCommand.loadLoop (n : Nat) : SameButCommand o₁ o₂ (loadLoop n s₁) (loadLoop n s₂) := by
  induction n generalizing s₁ s₂ with
  | zero => exact h
  | succ n ih =>
    rw [Machine.loadLoop, Machine.loadLoop, h.moreToLoad]
    split
    · exact ih h.loadByte
    · exact h

theorem SameButCommand.pollLoop (n : Nat) : SameButCommand o₁ o₂ (pollLoop n s₁) (pollLoop n s₂) := by
  induction n generalizing s₁ s₂ with
  | zero => exact h
  | succ n ih =>
    have poll := h.pollOnce s₁.cfg.regIrq
    simp only [Machine.pollLoop, h.cfg, poll.pollExit]
    split
    · exact poll
    · exact ih poll

/-! ### The lines of R103 keep the agreement -/

theorem SameButCommand.pseudoPrepare : SameButCommand o₁ o₂ (pseudoPrepare s₁) (pseudoPrepare s₂) := by
  simp only [Machine.pseudoPrepare, busWrite_cfg, clrb_cfg, h.cfg, h.ien]
  exact ((h.busWrite _ _).clrb _ _).setb _ _

theorem SameButCommand.pseudoPoll : SameButCommand o₁ o₂ (pseudoPoll s₁) (pseudoPoll s₂) := by
  rw [Machine.pseudoPoll, Machine.pseudoPoll, h.cfg]
  exact (h.loadCnt _).pollLoop _

theorem SameButCommand.pseudoStop : SameButCommand o₁ o₂ (pseudoStop s₁) (pseudoStop s₂) := by
  rw [Machine.pseudoStop, Machine.pseudoStop, h.cfg]
  exact h.clrb _ _

end

/-- Line 7 of R103 for a command other than Transceive: the error register, unless exhausted, and the status. -/
theorem pseudoResult_other (ht : ¬isTransceive s = true) :
    pseudoResult s = if s.cnt = 0 then s else if chipError (readErr s) then readErr s
      else setStatus (statusAfterErr (readErr s)) (readErr s) := by
  by_cases hc : s.cnt = 0
  · rw [pseudoResult_exhausted hc, if_pos hc]
  · rw [pseudoResult_classify hc, if_neg hc]
    obtain ⟨hx, he⟩ | ⟨hx, _, he⟩ | ⟨_, htr, _⟩ := pseudoClassify_cases s
    · rw [he, if_pos hx]
    · rw [he, if_neg hx]
    · exact absurd htr ht

theorem SameButCommand.pseudoResult {o₁ o₂ s₁ s₂ : State} (h : SameButCommand o₁ o₂ s₁ s₂)
    (h₁ : ¬isTransceive s₁ = true) (h₂ : ¬isTransceive s₂ = true) :
    SameButCommand o₁ o₂ (pseudoResult s₁) (pseudoResult s₂) := by
  rw [pseudoResult_other h₁, pseudoResult_other h₂, h.cnt, h.readErr.chipError, h.readErr.statusAfterErr]
  split_ifs
  · exact h
  · exact h.readErr
  · exact h.readErr.setStatus _

/-! ## Two plain commands -/

/-- Line 3 of R103 before the command is issued. -/
def pseudoLoaded (s : State) : State := loadLoop s.len.toNat (busWrite s.cfg.regCommand s.cfg.cmdIdle s)

theorem pseudoLoad_eq (s : State) : pseudoLoad s = busWrite s.cfg.regCommand s.cmd (pseudoLoaded s) := by
  simp only [pseudoLoad, pseudoLoaded, loadLoop_cfg, loadLoop_cmd, busWrite_cfg, busWrite_cmd]

theorem SameButCommand.pseudoLoaded {o₁ o₂ s₁ s₂ : State} (h : SameButCommand o₁ o₂ s₁ s₂) :
    SameButCommand o₁ o₂ (pseudoLoaded s₁) (pseudoLoaded s₂) := by
  rw [Machine.pseudoLoaded, Machine.pseudoLoaded, h.cfg, h.len]
  exact (h.busWrite _ _).loadLoop _

/-- Up to the command write an EXEC makes six transactions and one per data byte. -/
theorem pseudoLoaded_bus_length (cmd : Byte) {d : List Byte} (hlen : d.length ≤ 255) :
    (pseudoLoaded (pseudoPrepare (acceptExec cmd d s))).bus.length = s.bus.length + (6 + d.length) := by
  obtain ⟨a, b, hprepare⟩ := pseudoPrepare_bus (acceptExec cmd d s)
  have hload := pseudoLoad_bus (s := pseudoPrepare (acceptExec cmd d s)) (data := d) rfl (len_toNat d hlen)
    (fun k hk => (loaded_getElem? s.inBuf d hlen k).trans (if_pos hk))
  have total := congrArg List.length hload
  rw [pseudoLoad_eq, hprepare] at total
  simp only [List.length_append, List.length_cons, List.length_nil, List.length_map, busWrite_bus, acceptExec_bus]
    at total
  omega

section
variable {x y : Byte} (hx : plainCommand s.cfg x) (hy : plainCommand s.cfg y)
include hx

/-- For a plain command the poll follows the command write at once (R111, R113). -/
theorem pseudoPolled_plain (d : List Byte) : pseudoPolled x d s =
    pseudoStop (pseudoPoll (busWrite s.cfg.regCommand x (pseudoLoaded (pseudoPrepare (acceptExec x d s))))) := by
  have other : ¬isTransceive (pseudoLoad (pseudoPrepare (acceptExec x d s))) = true := by
    rw [isTransceive_iff]
    simpa using hx.2
  rw [pseudoPolled, pseudoStart_other other, pseudoLoad_eq, pseudoPrepare_cfg, pseudoPrepare_cmd, acceptExec_cfg,
    acceptExec_cmd]

theorem not_isTransceive_pseudoPolled (d : List Byte) : ¬isTransceive (pseudoPolled x d s) = true := by
  have same := sameRegisters_pseudoPolled x d s
  rw [isTransceive_iff, same.cmd, same.cfg]
  exact hx.2

include hy

/-- Acceptance selects the same masks for two plain commands (R105). -/
theorem sameButCommand_acceptExec (d : List Byte) : SameButCommand s s (acceptExec x d s) (acceptExec y d s) := by
  refine ⟨?_, [], (List.append_nil _).symm, (List.append_nil _).symm⟩
  simp only [acceptExec, masksOf_plain hx, masksOf_plain hy]
  rfl

end

/-- Settles O39: the meanings are one operation with its command byte, which for two plain commands only the command write
shows. -/
theorem rowsDifferOnlyInTwoCommands : Obligations.RowsDifferOnlyInTwoCommands := by
  refine ⟨fun c cmd d => by simp [selectExec_eq_execOther_iff], fun i s hi => exec_eq_execOther hi, ?_⟩
  intro s x y d ready hx hy hlen
  have loaded := (sameButCommand_acceptExec hx hy d).pseudoPrepare.pseudoLoaded
  obtain ⟨pre, pre₁, pre₂⟩ := loaded.trace
  have polled := (loaded.busWrite_other s.cfg.regCommand x y).pseudoPoll.pseudoStop
  rw [← pseudoPolled_plain hx, ← pseudoPolled_plain hy] at polled
  have result := polled.pseudoResult (not_isTransceive_pseudoPolled hx d) (not_isTransceive_pseudoPolled hy d)
  obtain ⟨post, post₁, post₂⟩ := result.trace
  have length := pseudoLoaded_bus_length x (s := s) hlen
  rw [pre₁, List.length_append, Nat.add_left_cancel_iff] at length
  obtain ⟨r, responses⟩ := pseudoExec_responses x d s
  refine ⟨_, _, pre, post, r, exec_execOther_pseudo x d ready, exec_execOther_pseudo y d ready, length, ?_, ?_,
    responses, ?_⟩
  · rw [pseudoExec_bus, post₁, busWrite_bus, pre₁, List.append_assoc, List.singleton_append]
  · rw [pseudoExec_bus, post₂, busWrite_bus, pre₂, List.append_assoc, List.singleton_append]
  · rw [pseudoExec_eq, result.responses, ← pseudoExec_eq, responses]

end Sys2Proof.Machine
end

section
/-! PROOFS. SETB and CLRB (O23), and the registers that a request accesses (O47). -/

namespace Sys2Proof.Machine

variable {s : State}

/-! ## SETB and CLRB -/

/-- A read into T and a write at the same address, as one next state (R64). -/
theorem busWrite_readToT (a v : Byte) (s : State) :
    busWrite a v (readToT a s) = { s with
      t := answer s
      bus := s.bus ++ [.read (busAddr a) (answer s), .write (busAddr a) v]
      mem := Memory.write s.mem (busAddr a).toNat v
      answers := s.answers.tail
      reads := s.reads + 1 } := by
  rw [busWrite, readToT_bus, List.append_assoc]
  rfl

/-- Settles O23: both are a read into T and a write of what the mask makes of it. -/
theorem setAndClearBits : Obligations.SetAndClearBits := fun a m s =>
  ⟨busWrite_readToT a (answer s ||| m) s, busWrite_readToT a (answer s &&& ~~~m) s, fun _ => BitVec.toNat_not⟩

/-! ## The registers that the engine accesses -/

/-- A transaction at a register of a legal CFG is not at a reserved one (R9 (c)). -/
theorem txn_configured {c : Cfg} (hl : c.legal = true) {a : Byte} (ha : a ∈ c.registers) {x : Txn}
    (hx : x.addr = busAddr a) : x.Configured c :=
  ⟨hx ▸ List.mem_map_of_mem ha, hx ▸ (legal_registers hl ha).2⟩

/-- Between `o` and `u` CFG has not changed and every transaction was at a register of CFG (R99). -/
structure Confined (o u : State) : Prop where
  cfg : u.cfg = o.cfg
  trace : ∃ trace : List Txn, u.bus = o.bus ++ trace ∧ ∀ x ∈ trace, x.Configured o.cfg

theorem confined_of_bus_eq {o u : State} (hc : u.cfg = o.cfg) (hb : u.bus = o.bus) : Confined o u :=
  ⟨hc, [], by rw [hb, List.append_nil], List.forall_mem_nil _⟩

theorem Confined.trans {o u w : State} (h : Confined o u) (h' : Confined u w) : Confined o w := by
  obtain ⟨cfg, pre, bus, configured⟩ := h
  obtain ⟨cfg', post, bus', configured'⟩ := h'
  rw [cfg] at configured'
  exact ⟨cfg'.trans cfg, pre ++ post, by rw [bus', bus, List.append_assoc],
    List.forall_mem_append.2 ⟨configured, configured'⟩⟩

/-- The step of a phase accesses the one register of its rule, which is one of CFG, or none (R23, R52). -/
theorem phaseStep_confined (hl : s.cfg.legal = true) : Confined s (phaseStep s) := by
  refine ⟨phaseStep_cfg s, _, phaseTransactions s, ?_⟩
  have one {a : Byte} {x : Txn} (ha : a ∈ s.cfg.registers) (hx : x.addr = busAddr a) :
      ∀ y ∈ [x], y.Configured s.cfg := List.forall_mem_singleton.2 (txn_configured hl ha hx)
  cases s.phase with
  | idle | xDone | cDone => exact List.forall_mem_nil _
  | xIdleWr | xCmdWr | cCmdWr => exact one (a := s.cfg.regCommand) (by simp [Cfg.registers]) rfl
  | xIenWr => exact one (a := s.cfg.regIen) (by simp [Cfg.registers]) rfl
  | xIrqRd | xIrqWr | xPoll => exact one (a := s.cfg.regIrq) (by simp [Cfg.registers]) rfl
  | cClrRd | cClrWr | cPoll => exact one (a := s.cfg.regDivIrq) (by simp [Cfg.registers]) rfl
  | xErrRd => exact one (a := s.cfg.regError) (by simp [Cfg.registers]) rfl
  | xLoad | xDrain | cLoad => exact one (a := s.cfg.regFifoData) (by simp [Cfg.registers]) rfl
  | xFlushRd | xFlushWr | xLevelRd | cFlushRd | cFlushWr =>
    exact one (a := s.cfg.regFifoLevel) (by simp [Cfg.registers]) rfl
  | xLastRd => exact one (a := s.cfg.regControl) (by simp [Cfg.registers]) rfl
  | xStartRd | xStartWr | xStopRd | xStopWr => exact one (a := s.cfg.regBitFraming) (by simp [Cfg.registers]) rfl
  | cResL => exact one (a := s.cfg.regCrcL) (by simp [Cfg.registers]) rfl
  | cResH => exact one (a := s.cfg.regCrcH) (by simp [Cfg.registers]) rfl

theorem tick_confined (s : State) : Confined s (tick s) := confined_of_bus_eq rfl rfl

theorem resetEngine_confined (s : State) : Confined s (resetEngine s) := confined_of_bus_eq rfl rfl

theorem engineStep_confined (hl : s.cfg.legal = true) : Confined s (engineStep s) := by
  rw [engineStep]
  split
  · exact resetEngine_confined s
  · exact (tick_confined s).trans (phaseStep_confined hl)

theorem finishRequest_confined (hl : s.cfg.legal = true) : Confined s (finishRequest s) :=
  finishRequest_keeps (P := Confined s) (fun _ _ h => h.trans (engineStep_confined (by rwa [h.cfg])))
    (confined_of_bus_eq rfl rfl)

/-- Nor does what comes before acceptance, the request in progress and the reset, access another register (R178, R182). -/
theorem whenIdle_confined (hl : s.cfg.legal = true) : Confined s (whenIdle s) := by
  rw [whenIdle]
  split
  · exact (finishRequest_confined hl).trans (resetEngine_confined _)
  · exact (finishRequest_confined hl).trans (tick_confined _)

/-- A request is what comes before acceptance, acceptance, and the run that follows, whatever the state (R5, R104). -/
theorem exec_request_of_whenIdle {i : Instr} (hi : i.isRequest = true) :
    exec i s = .next (finishRequest (acceptRequest i (whenIdle s))) := by
  obtain hx | ⟨d, rfl⟩ := isExec_or_crc_of_isRequest hi
  · rw [exec_eq_execOther hx, exec_execOther, acceptRequest, if_pos hx, whenIdle_cfg, runExec]
  · rfl

theorem acceptRequest_confined (i : Instr) (s : State) : Confined s (acceptRequest i s) := by
  rw [acceptRequest]
  split <;> exact confined_of_bus_eq rfl rfl

/-- Settles O47: the stages of a request are confined one after the other. -/
theorem onlyConfiguredRegisters : Obligations.OnlyConfiguredRegisters := by
  intro i s hi hl
  have accepted := (whenIdle_confined hl).trans (acceptRequest_confined i (whenIdle s))
  have finished := accepted.trans (finishRequest_confined (by rwa [accepted.cfg]))
  obtain ⟨trace, bus, configured⟩ := finished.trace
  exact ⟨_, trace, exec_request_of_whenIdle hi, bus, configured⟩

end Sys2Proof.Machine
end

section
/-! PROOFS. The phases as exact states (O24, O25, O26, O27, O28, O30). -/

namespace Sys2Proof.Machine

variable {s : State}

/-- The step of a state in phase `p`, in the form that the lemmas about each phase have. -/
theorem phaseStep_of_phase {p : Phase} (hp : s.phase = p) : phaseStep s = phaseStep (goto p s) := by
  rw [← hp]; rfl

/-- Settles O24: the write phase uses the T that the read phase before it has latched. -/
theorem phasePairsAreSetbAndClrb : Obligations.PhasePairsAreSetbAndClrb := by
  intro s
  refine ⟨fun hp => ?_, fun hp => ?_, fun hp => ?_, fun hp => ?_, fun hp => ?_, fun hp => ?_⟩ <;>
    rw [phaseStep_of_phase hp]
  · rfl
  · rfl
  · rfl
  · rw [← if_congr (exhausted_iff (s := s)) rfl rfl]; rfl
  · rfl
  · rw [← if_congr (len_ne_zero_iff (s := s)) rfl rfl]; rfl

/-- Settles O25: the exit test reads the values that the poll itself has written. -/
theorem onePoll : Obligations.OnePoll := by
  intro s
  refine ⟨fun hp => ?_, fun hp => ?_⟩ <;> rw [phaseStep_of_phase hp]
  · rw [phaseStep_xPoll, if_congr pollExit_iff rfl rfl]; rfl
  · rw [phaseStep_cPoll, if_congr crcPollExit_iff rfl rfl]; rfl

/-- Settles O26: a masked error bit leaves STATUS; without one `statusAfterErr` is the NoTagError test. -/
theorem errorReadSetsStatus : Obligations.ErrorReadSetsStatus := by
  intro s hp
  rw [phaseStep_of_phase hp, phaseStep_xErrRd]
  refine ⟨fun hx => ?_, fun hx => ?_⟩
  · have error : chipError (readErr s) = true := chipError_iff.2 hx
    rw [if_pos error, statusAfterErr_of_chipError error]
    rfl
  · have clear : ¬chipError (readErr s) = true := mt chipError_iff.1 (not_not.2 hx)
    rw [if_neg clear, statusAfterErr, if_neg clear, if_congr noTagSeen_iff rfl rfl, if_congr isTransceive_iff rfl rfl]
    rfl

/-! ## The length of a received frame (R121, R122, R123) -/

/-- validBits is the three bits of the byte from `LAST_BITS_LSB` on (R82 (d)). -/
theorem validBitsOf_toNat (lsb : Nat) (v : Byte) : (validBitsOf lsb v).toNat = v.toNat / 2 ^ lsb % 8 := by
  have mask : v.toNat >>> lsb &&& 7 = v.toNat >>> lsb % 8 := Nat.and_two_pow_sub_one_eq_mod _ 3
  rw [validBitsOf, BitVec.toNat_setWidth, BitVec.toNat_and, BitVec.toNat_ushiftRight,
    ← Nat.shiftRight_eq_div_pow, ← mask]
  exact Nat.mod_eq_of_lt (Nat.lt_of_le_of_lt Nat.and_le_right (by decide))

theorem exactBitLen_of_ne_zero {vb : BitVec 3} (lvl : Byte) (h : vb ≠ 0) :
    exactBitLen lvl vb = ((lvl.toNat : Int) - 1) * 8 + vb.toNat := if_pos h

theorem exactBitLen_of_eq_zero {vb : BitVec 3} (lvl : Byte) (h : vb = 0) :
    exactBitLen lvl vb = (lvl.toNat : Int) * 8 := if_neg (not_not.2 h)

/-- An empty FIFO is drained once (R123). -/
theorem drainCount_zero (m : BitVec 5) : drainCount m 0 = 1 := if_pos rfl

/-- A level above MAX_LEN is drained up to MAX_LEN (R123). -/
theorem drainCount_of_gt {m : BitVec 5} {lvl : Byte} (h : lvl.toNat > m.toNat) : drainCount m lvl = m := by
  have h0 : lvl ≠ 0 := fun h0 => by rw [h0] at h; exact Nat.not_lt_zero _ h
  rw [drainCount, if_neg h0, if_pos h]

/-- Any other level is drained whole (R123). -/
theorem drainCount_of_le {m : BitVec 5} {lvl : Byte} (h0 : lvl ≠ 0) (h : lvl.toNat ≤ m.toNat) :
    (drainCount m lvl).toNat = lvl.toNat := by
  have hm := m.isLt
  rw [drainCount, if_neg h0, if_neg (Nat.not_lt.2 h), BitVec.toNat_setWidth, Nat.mod_eq_of_lt (by omega)]

/-- Settles O28: the register holds the exact integer, for it fits. -/
theorem bitLengthIsExact : Obligations.BitLengthIsExact := by
  intro lvl vb
  rw [bitLenOf_toInt]
  exact ⟨exactBitLen_of_ne_zero lvl, exactBitLen_of_eq_zero lvl, exactBitLen_bounds lvl vb⟩

/-- Settles O27: `readLast` computes VB, BITLEN and DCNT from the answer and LVL. -/
theorem lengthReads : Obligations.LengthReads := by
  refine fun s => ⟨fun hp => by rw [phaseStep_of_phase hp]; rfl, fun hp => ?_⟩
  have bitLen := bitLenOf_toInt s.lvl (validBitsOf s.cfg.lastBitsLsb (answer s))
  refine ⟨goto .xDrain (readLast s), phaseStep_of_phase hp, rfl, rfl, rfl, validBitsOf_toNat _ _,
    fun h => bitLen.trans (exactBitLen_of_ne_zero _ h), fun h => bitLen.trans (exactBitLen_of_eq_zero _ h), fun h => ?_,
    drainCount_of_gt, drainCount_of_le, rfl⟩
  rw [goto_dcnt, readLast_dcnt, h, drainCount_zero]

/-- Settles O30: each phase by its own lemma. -/
theorem plainPhases : Obligations.PlainPhases := by
  intro s
  refine ⟨fun hp => ?_, fun hp => ?_, fun hp ht => ?_, fun hp ht => ?_, fun hp => ?_, fun hp => ?_, fun hp => ?_,
    fun hp => ?_, fun hp => ?_⟩ <;> rw [phaseStep_of_phase hp]
  case refine_2 => rw [phaseStep_xIdleWr, if_congr len_ne_zero_iff rfl rfl]
  case refine_3 => exact phaseStep_xCmdWr_transceive s (isTransceive_iff.2 ht)
  case refine_4 => exact phaseStep_xCmdWr_other s (decide_eq_false ht)
  all_goals rfl

end Sys2Proof.Machine
end

section
/-! PROOFS. The request in progress: one response, one transaction per engine step (O19), and the six EXEC rows as the
pseudocode of R103 (O31). -/

namespace Sys2Proof.Machine

variable {s : State}

/-! ## The step of a busy engine -/

/-- Only the two last phases respond, and they end the request; every other phase makes one transaction (R24, R25). -/
inductive BusyStep (s t : State) : Prop where
  | transfer (phase : t.phase ≠ .idle) (responses : t.responses = s.responses)
      (length : t.bus.length = s.bus.length + 1)
  | respond (last : s.phase = .xDone ∨ s.phase = .cDone) (r : Response) (next : t = Machine.respond r s)

/-- A branch between two phases outside IDLE stays outside IDLE. -/
theorem branch_ne_idle {c : Prop} [Decidable c] {p q : Phase} (hp : p ≠ .idle) (hq : q ≠ .idle) :
    (if c then p else q) ≠ .idle := by
  split
  · exact hp
  · exact hq

theorem busyStep_xCmdWr (s : State) : BusyStep s (phaseXCmdWr s) := by
  rw [phaseXCmdWr]
  split <;> exact .transfer nofun rfl List.length_append

theorem busyStep_phaseStep (h : s.phase ≠ .idle) : BusyStep s (phaseStep s) := by
  rw [phaseStep]
  cases hp : s.phase with
  | idle => exact absurd hp h
  | xDone => exact .respond (.inl hp) _ rfl
  | cDone => exact .respond (.inr hp) _ rfl
  | xCmdWr => exact busyStep_xCmdWr s
  | xErrRd => exact .transfer (branch_ne_idle nofun (branch_ne_idle nofun nofun)) rfl List.length_append
  | xIdleWr | xLoad | xPoll | xStopWr | xDrain | cFlushWr | cLoad | cPoll =>
    exact .transfer (branch_ne_idle nofun nofun) rfl List.length_append
  | xIenWr | xIrqRd | xIrqWr | xFlushRd | xFlushWr | xStartRd | xStartWr | xStopRd | xLevelRd | xLastRd
  | cClrRd | cClrWr | cFlushRd | cCmdWr | cResL | cResH => exact .transfer nofun rfl List.length_append

/-- With no reset scheduled the request in progress gets exactly one response (R125, R142). -/
theorem finishRequest_responds (hp : s.phase ≠ .idle) (hr : s.resetIn = none) :
    ∃ r, (finishRequest s).responses = s.responses ++ [r] := by
  induction s using run_induction with
  | idle s idle => exact absurd idle hp
  | busy s _ ih =>
    rw [engineStep_of_none hr] at ih
    rw [finishRequest_step hp hr]
    cases busyStep_phaseStep hp with
    | transfer phase responses _ => rw [← responses]; exact ih phase (by simpa using hr)
    | respond _ r next => rw [next, finishRequest_idle rfl]; exact ⟨r, rfl⟩

/-- A request takes one engine step per transaction, and one for its response (R132). -/
theorem runEngine_phase_of_bus {n : Nat} (hl : s.cfg.legal = true) (hr : s.resetIn = none)
    (hn : (finishRequest s).bus.length < s.bus.length + n) : (runEngine n s).phase = .idle := by
  induction s using run_induction generalizing n with
  | idle s idle => rwa [runEngine_idle n idle]
  | busy s hp ih =>
    cases n with
    | zero =>
      obtain ⟨trace, bus, _⟩ := (finishRequest_confined hl).trace
      rw [bus, List.length_append] at hn
      omega
    | succ n =>
      rw [engineStep_of_none hr] at ih
      rw [finishRequest_step hp hr] at hn
      rw [runEngine_busy n hp, engineStep_of_none hr]
      cases busyStep_phaseStep hp with
      | transfer _ _ length => exact ih (by simpa using hl) (by simpa using hr) (by omega)
      | respond _ r next => rw [next, runEngine_idle n rfl]; rfl

/-! ## A request presented meanwhile -/

/-- Once the request in progress is finished there is nothing more to wait for. -/
theorem whenIdle_finishRequest (s : State) : whenIdle (finishRequest s) = whenIdle s := by
  rw [whenIdle, whenIdle, finishRequest_idle (finishRequest_phase s)]

/-- Settles O19: the step is `finishRequest`, which is also what a request waits for. -/
theorem requestWaitsWhileBusy : Obligations.RequestWaitsWhileBusy := by
  intro s hl hr hp
  obtain ⟨r, responses⟩ := finishRequest_responds hp hr
  refine ⟨finishRequest s, r, step_settle (fetch_busy hl (by rw [hr]; exact nofun) hp), ready_finishRequest hr hl,
    finishRequest_inbox s, responses, fun i hi => ?_⟩
  rw [exec_request_of_whenIdle hi, exec_request_of_whenIdle hi, whenIdle_finishRequest]

/-- In a ready state an EXEC is the pseudocode of R103 with its command byte. -/
theorem exec_pseudo {i : Instr} (hi : i.isExec = true) (ready : s.Ready) :
    exec i s = .next (pseudoExec (commandOf s.cfg i) i.data s) :=
  (exec_eq_execOther hi).trans (exec_execOther_pseudo _ _ ready)

/-- Settles O31: `exec_pseudo` for each of the six rows. -/
theorem execRunsThePseudocode : Obligations.ExecRunsThePseudocode := fun _ ready =>
  ⟨fun _ => exec_pseudo rfl ready, fun _ => exec_pseudo rfl ready, fun _ => exec_pseudo rfl ready,
    fun _ => exec_pseudo rfl ready, fun _ => exec_pseudo rfl ready, fun _ _ => exec_pseudo rfl ready⟩

end Sys2Proof.Machine
end

section
/-! PROOFS. What every EXEC leaves behind: the polls (O34), the number of transactions (O40), and the results by command
(O36, O37, O38, O42). -/

namespace Sys2Proof.Machine

variable {s : State}

/-! ## The result registers -/

/-- Along the run of an EXEC, what holds in each phase; and at its end, in the same registers, what holds in X_DONE. -/
structure ExecRun (s : State) : Prop where
  legal : s.cfg.legal = true
  resetIn : s.resetIn = none
  op : s.op = .exec
  phase : s.phaseInv
  ended : s.phase = .idle → (goto .xDone s).phaseInv

theorem execRun_acceptExec (cmd : Byte) (data : List Byte) (hr : s.resetIn = none) (hl : s.cfg.legal = true) :
    ExecRun (acceptExec cmd data s) :=
  ⟨hl, hr, rfl, ⟨⟨rfl, ⟨rfl, rfl⟩, rfl, rfl, rfl, rfl⟩, rfl⟩, nofun⟩

/-- An EXEC ends in X_DONE and not in C_DONE, where a CRC is in progress. -/
theorem ExecRun.phaseStep (h : ExecRun s) (hp : s.phase ≠ .idle) : ExecRun (phaseStep s) := by
  refine ⟨by simpa using h.legal, by simpa using h.resetIn, by simpa using h.op, phaseInv_phaseStep h.legal h.phase,
    fun ended => ?_⟩
  have inv := h.phase
  cases busyStep_phaseStep hp with
  | transfer busy => exact absurd ended busy
  | respond last r next =>
    rw [State.phaseInv] at inv
    obtain hp | hp := last <;> simp only [hp] at inv
    · rw [next]; exact inv
    · obtain ⟨⟨op, _⟩, _⟩ := inv
      cases h.op.symm.trans op

/-- What the state `t` holds that an EXEC with command byte `cmd` in `s` ends in: the latches, the status of the cause
table, and the result (R105, R122 to R125, R151). -/
structure ExecEnd (cmd : Byte) (s t : State) : Prop where
  cfg : t.cfg = s.cfg
  issued : t.cmd = cmd
  ien : t.ien = (masksOf s.cfg cmd).1
  wait : t.wait = (masksOf s.cfg cmd).2
  status : t.status = if t.cnt = 0 ∨ t.err &&& s.cfg.errMask ≠ 0 then s.cfg.stErr
    else if t.nirq &&& t.ien &&& s.cfg.irqTimer ≠ 0 then s.cfg.stNoTag else s.cfg.stOk
  empty : t.status = s.cfg.stErr ∨ cmd ≠ s.cfg.cmdTransceive → payload t = [] ∧ t.vb = 0 ∧ t.bitLen = 0
  received : t.status ≠ s.cfg.stErr → cmd = s.cfg.cmdTransceive →
    t.dcnt = drainCount s.cfg.maxLen t.lvl ∧ t.bitLen.toInt = exactBitLen t.lvl t.vb ∧
      (payload t).length = t.dcnt.toNat

theorem causeTable_eq (s : State) : causeTable s = if s.cnt = 0 ∨ s.err &&& s.cfg.errMask ≠ 0 then s.cfg.stErr
    else if s.nirq &&& s.ien &&& s.cfg.irqTimer ≠ 0 then s.cfg.stNoTag else s.cfg.stOk := by
  rw [causeTable, if_congr exhausted_iff rfl rfl, if_congr chipError_iff rfl rfl, if_congr noTagSeen_iff rfl rfl]
  by_cases hc : s.cnt = 0
  · rw [if_pos hc, if_pos (.inl hc)]
  · rw [if_neg hc, if_congr (or_iff_right hc) rfl rfl]

@[simp] theorem causeTable_goto (p : Phase) (s : State) : causeTable (goto p s) = causeTable s := rfl

theorem payload_of_olen_eq_zero (h : s.olen = 0) : payload s = [] := by rw [payload, h]; rfl

theorem payload_length (h : s.olen.toNat ≤ 16) : (payload s).length = s.olen.toNat := by
  rw [payload, List.length_take, Vector.length_toList, Nat.min_eq_left h]

/-- The number of bytes drained is 1 to 16 under a legal CFG (R9 (b), R123). -/
theorem legal_drainCount {c : Cfg} (hl : c.legal = true) (lvl : Byte) :
    1 ≤ (drainCount c.maxLen lvl).toNat ∧ (drainCount c.maxLen lvl).toNat ≤ 16 := by
  have maxLen := legal_maxLen hl
  have bounds := drainCount_bounds lvl maxLen.1
  exact ⟨bounds.1, Nat.le_trans bounds.2 maxLen.2⟩

theorem execEnd_pseudoExec (cmd : Byte) (data : List Byte) (hr : s.resetIn = none) (hl : s.cfg.legal = true) :
    ExecEnd cmd s (pseudoExec cmd data s) := by
  have latched := finishRequest_sameLatches (s := acceptExec cmd data s) hr
  have run : ExecRun (finishRequest (acceptExec cmd data s)) :=
    finishRequest_keeps (fun u hp h => by rw [engineStep_of_none h.resetIn]; exact h.phaseStep hp)
      (execRun_acceptExec cmd data hr hl)
  have done := run.ended (finishRequest_phase _)
  rw [finishRequest_acceptExec cmd data hr hl] at latched done
  have cfg : (pseudoExec cmd data s).cfg = s.cfg := latched.cfg
  have cmd' : (pseudoExec cmd data s).cmd = cmd := latched.cmd
  simp only [State.phaseInv, goto_phase, goto_status, goto_cfg, goto_cmd, goto_dcnt, goto_lvl, goto_bitLen, goto_vb,
    goto_olen, causeTable_goto, cfg, cmd'] at done
  obtain ⟨_, _, status, result⟩ := done
  refine ⟨cfg, cmd', latched.ien, latched.wait, ?_, fun h => ?_, fun hs ht => ?_⟩
  · rw [← cfg]; exact status.trans (causeTable_eq _)
  · rw [if_neg (fun received => h.elim received.1 (absurd received.2))] at result
    obtain ⟨olen, vb, bitLen⟩ := result
    exact ⟨payload_of_olen_eq_zero olen, vb, bitLen⟩
  · rw [if_pos ⟨hs, ht⟩] at result
    obtain ⟨dcnt, bitLen, olen⟩ := result
    have drained := (legal_drainCount hl (pseudoExec cmd data s).lvl).2
    rw [← dcnt, ← olen] at drained
    exact ⟨dcnt, bitLen, by rw [payload_length drained, olen]⟩

/-- The status is Error when the polls exhausted the budget or a masked error bit was read, and only then (R151). -/
theorem ExecEnd.status_eq_stErr_iff {cmd : Byte} {t : State} (h : ExecEnd cmd s t) (hl : s.cfg.legal = true) :
    t.status = s.cfg.stErr ↔ t.cnt = 0 ∨ t.err &&& s.cfg.errMask ≠ 0 := by
  obtain ⟨_, ok, noTag⟩ := legal_status hl
  rw [h.status]
  split_ifs with error
  · exact iff_of_true rfl error
  · exact iff_of_false noTag error
  · exact iff_of_false ok error

theorem ExecEnd.status_ne_stErr {cmd : Byte} {t : State} (h : ExecEnd cmd s t) (hl : s.cfg.legal = true)
    (hc : t.cnt ≠ 0) (hx : t.err &&& s.cfg.errMask = 0) : t.status ≠ s.cfg.stErr :=
  mt (h.status_eq_stErr_iff hl).1 (not_or.2 ⟨hc, not_not.2 hx⟩)

/-- A Transceive that received has drained 1 to 16 bytes (R123, R126). -/
theorem ExecEnd.dcnt_bounds {cmd : Byte} {t : State} (h : ExecEnd cmd s t) (hl : s.cfg.legal = true)
    (hs : t.status ≠ s.cfg.stErr) (ht : cmd = s.cfg.cmdTransceive) : 1 ≤ t.dcnt.toNat ∧ t.dcnt.toNat ≤ 16 := by
  rw [(h.received hs ht).1]
  exact legal_drainCount hl t.lvl

/-! ## The polls (R114 to R117) -/

/-- A polled byte without the timer bit and without a wait bit. -/
def QuietPoll (c : Cfg) (wait v : Byte) : Prop := v &&& c.irqTimer = 0 ∧ v &&& wait = 0

/-- The bytes that a poll loop reads within its budget, and the CNT and NIRQ it leaves: the loop goes on after a quiet
byte only, and it ends by the byte that is not quiet or by the budget. -/
structure PollRun (quiet : Byte → Prop) (budget : Nat) (polls : List Byte) (cnt : BitVec 16) (nirq : Byte) : Prop where
  count : cnt.toNat + polls.length = budget
  last : polls.getLast? = some nirq
  before : ∀ v ∈ polls.dropLast, quiet v
  seen : cnt ≠ 0 → ¬quiet nirq

section
variable {quiet : Byte → Prop} {budget : Nat} {polls : List Byte} {cnt : BitVec 16} {nirq : Byte}
  (run : PollRun quiet budget polls cnt nirq)
include run

theorem PollRun.ne_nil : polls ≠ [] := by
  rintro rfl
  cases run.last

theorem PollRun.length_pos : 1 ≤ polls.length := List.length_pos_iff.2 run.ne_nil

theorem PollRun.length_le : polls.length ≤ budget := run.count ▸ Nat.le_add_left _ _

theorem PollRun.cnt_eq : cnt.toNat = budget - polls.length := Nat.eq_sub_of_add_eq run.count

/-- A quiet byte before a run makes a run with one more in the budget. -/
theorem PollRun.cons {v : Byte} (h : quiet v) : PollRun quiet (budget + 1) (v :: polls) cnt nirq where
  count := by rw [List.length_cons, ← Nat.add_assoc, run.count]
  last := by rw [List.getLast?_cons_of_ne_nil run.ne_nil, run.last]
  before := by
    rw [List.dropLast_cons_of_ne_nil run.ne_nil]
    exact List.forall_mem_cons.2 ⟨h, run.before⟩
  seen := run.seen

/-- The budget is exhausted when no poll but the last that it allows has shown a bit (R117). -/
theorem PollRun.exhausted_iff : cnt = 0 ↔ ∀ v ∈ polls.take (budget - 1), quiet v := by
  have count := run.count
  rw [cnt_eq_zero]
  refine ⟨fun h => ?_, fun h => ?_⟩
  · rw [← count, h, Nat.zero_add, ← List.dropLast_eq_take]
    exact run.before
  · by_contra hc
    have all : polls.take (budget - 1) = polls := List.take_of_length_le (by omega)
    rw [all] at h
    exact run.seen (mt (cnt_eq_zero cnt).1 hc) (h nirq (List.mem_of_getLast? run.last))

end

/-- The exit test of a poll: the budget, or a byte that is not quiet (R114). -/
theorem pollExit_pollOnce_iff (a : Byte) :
    pollExit (pollOnce a s) = true ↔ s.cnt - 1 = 0 ∨ ¬QuietPoll s.cfg s.wait (answer s) := by
  rw [pollExit_iff, QuietPoll, not_and_or]
  rfl

theorem pollLoop_run (h : s.cnt ≠ 0) : ∃ polls : List Byte,
    (pollLoop s.cnt.toNat s).bus = s.bus ++ polls.map (Txn.read (busAddr s.cfg.regIrq)) ∧
      PollRun (QuietPoll s.cfg s.wait) s.cnt.toNat polls (pollLoop s.cnt.toNat s).cnt
        (pollLoop s.cnt.toNat s).nirq := by
  obtain ⟨n, hn⟩ : ∃ n, s.cnt.toNat = n := ⟨_, rfl⟩
  induction n generalizing s with
  | zero => exact absurd ((cnt_eq_zero _).2 hn) h
  | succ n ih =>
    have pred := cnt_pred h
    have hn' : (s.cnt - 1).toNat = n := by omega
    rw [hn, pollLoop]
    by_cases hx : pollExit (pollOnce s.cfg.regIrq s) = true
    · rw [if_pos hx]
      refine ⟨[answer s], rfl, ⟨?_, rfl, nofun, fun hc => ?_⟩⟩
      · exact pred.trans hn
      · exact ((pollExit_pollOnce_iff _).1 hx).resolve_left hc
    · obtain ⟨hc, hq⟩ := not_or.1 (mt (pollExit_pollOnce_iff _).2 hx)
      obtain ⟨polls, bus, run⟩ := ih (s := pollOnce s.cfg.regIrq s) hc hn'
      rw [pollOnce_cnt, hn'] at bus run
      rw [if_neg hx]
      refine ⟨answer s :: polls, ?_, run.cons (not_not.1 hq)⟩
      rw [bus, pollOnce_bus, List.append_assoc]
      rfl

/-! ## The transactions -/

/-- Lines 1 to 4 of R103, up to the first poll. -/
def pseudoIssued (cmd : Byte) (data : List Byte) (s : State) : State :=
  pseudoStart (pseudoLoad (pseudoPrepare (acceptExec cmd data s)))

theorem pseudoPolled_eq (cmd : Byte) (data : List Byte) (s : State) :
    pseudoPolled cmd data s = pseudoStop (pseudoPoll (pseudoIssued cmd data s)) := rfl

@[simp] theorem pseudoIssued_cfg (cmd : Byte) (data : List Byte) (s : State) :
    (pseudoIssued cmd data s).cfg = s.cfg := by simp [pseudoIssued]

@[simp] theorem pseudoStop_cnt (s : State) : (pseudoStop s).cnt = s.cnt := rfl
@[simp] theorem pseudoStop_nirq (s : State) : (pseudoStop s).nirq = s.nirq := rfl

/-- No transfer writes WAIT (R29). -/
theorem pseudoIssued_wait (cmd : Byte) (data : List Byte) (s : State) :
    (pseudoIssued cmd data s).wait = (masksOf s.cfg cmd).2 := by
  have k : KeptByTransfers fun u => u.wait = (masksOf s.cfg cmd).2 :=
    ⟨fun _ _ _ h => h, fun _ _ h => h, fun _ h => h, fun _ _ h => h, fun _ _ h => h⟩
  exact k.pseudoStart (k.pseudoLoad (k.pseudoPrepare rfl))

/-- Before the first poll an EXEC makes seven transactions, one per data byte, and two for start-send (R106 to R112). -/
theorem pseudoIssued_bus (cmd : Byte) {data : List Byte} (hlen : data.length ≤ 255) : ∃ pre : List Txn,
    (pseudoIssued cmd data s).bus = s.bus ++ pre ∧
      pre.length = 7 + data.length + (if cmd = s.cfg.cmdTransceive then 2 else 0) := by
  let prepared := pseudoPrepare (acceptExec cmd data s)
  obtain ⟨a, b, hprepare⟩ := pseudoPrepare_bus (acceptExec cmd data s)
  have hload := pseudoLoad_bus (s := prepared) (data := data) rfl (len_toNat data hlen)
    (fun k hk => (loaded_getElem? s.inBuf data hlen k).trans (if_pos hk))
  obtain ⟨g, hstart⟩ := pseudoStart_bus (pseudoLoad prepared)
  rw [hload, hprepare] at hstart
  simp only [List.append_assoc] at hstart
  refine ⟨_, hstart, ?_⟩
  have latched : prepared.cfg = s.cfg ∧ prepared.cmd = cmd := ⟨pseudoPrepare_cfg _, pseudoPrepare_cmd _⟩
  simp only [List.length_append, List.length_cons, List.length_nil, List.length_map, apply_ite List.length,
    pseudoLoad_cfg, pseudoLoad_cmd, latched]
  split <;> omega

/-- The polls of an EXEC on the bus, between the lines before them and the two transactions that clear start-send (R115,
R118). -/
theorem pseudoPolled_trace (cmd : Byte) {data : List Byte} (hlen : data.length ≤ 255) (hl : s.cfg.legal = true) :
    ∃ (pre : List Txn) (polls : List Byte) (f g : Byte),
      (pseudoPolled cmd data s).bus = s.bus ++ pre ++ polls.map (Txn.read (busAddr s.cfg.regIrq))
        ++ [Txn.read (busAddr s.cfg.regBitFraming) f, Txn.write (busAddr s.cfg.regBitFraming) g] ∧
      pre.length = 7 + data.length + (if cmd = s.cfg.cmdTransceive then 2 else 0) ∧
      PollRun (QuietPoll s.cfg (masksOf s.cfg cmd).2) s.cfg.pollBudget.toNat polls (pseudoPolled cmd data s).cnt
        (pseudoPolled cmd data s).nirq := by
  obtain ⟨pre, hissued, hpre⟩ := pseudoIssued_bus (s := s) cmd hlen
  obtain ⟨polls, hpoll, run⟩ := pollLoop_run (s := loadCnt s.cfg.pollBudget (pseudoIssued cmd data s))
    (legal_budgets hl).1
  obtain ⟨f, hstop⟩ := pseudoStop_bus (pseudoPoll (pseudoIssued cmd data s))
  have hrun : pseudoPoll (pseudoIssued cmd data s) =
      pollLoop s.cfg.pollBudget.toNat (loadCnt s.cfg.pollBudget (pseudoIssued cmd data s)) := by
    rw [pseudoPoll, pseudoIssued_cfg]
  simp only [loadCnt_cnt, loadCnt_cfg, loadCnt_wait, loadCnt_bus, pseudoIssued_cfg, pseudoIssued_wait, hissued, ← hrun]
    at hpoll run
  rw [hpoll, pseudoPoll_cfg, pseudoIssued_cfg] at hstop
  rw [pseudoPolled_eq, pseudoStop_cnt, pseudoStop_nirq]
  exact ⟨pre, polls, f, _, hstop, hpre, run⟩

/-- Line 7 of R103 polls no more. -/
theorem pseudoResult_nirq (s : State) : (pseudoResult s).nirq = s.nirq :=
  pseudoResult_keeps (P := fun u => u.nirq = s.nirq) (fun _ h => h) (fun _ _ h => h) (fun _ h => h) (fun _ h => h)
    (fun _ h => h) rfl

@[simp] theorem respondExec_nirq (s : State) : (respondExec s).nirq = s.nirq := rfl

/-- What line 7 of R103 puts on the bus, told from the registers that it leaves and the last-bits byte `w`. -/
def resultTrace (c : Cfg) (cmd w : Byte) (t : State) : List Txn :=
  (if t.cnt = 0 then [] else [Txn.read (busAddr c.regError) t.err])
    ++ if t.cnt ≠ 0 ∧ t.err &&& c.errMask = 0 ∧ cmd = c.cmdTransceive
      then [Txn.read (busAddr c.regFifoLevel) t.lvl, Txn.read (busAddr c.regControl) w]
        ++ (payload t).map (Txn.read (busAddr c.regFifoData))
      else []

theorem resultTrace_length {cmd : Byte} {t : State} (w : Byte) (hl : s.cfg.legal = true) (ended : ExecEnd cmd s t) :
    (resultTrace s.cfg cmd w t).length = (if t.cnt ≠ 0 then 1 else 0)
      + (if t.cnt ≠ 0 ∧ t.err &&& s.cfg.errMask = 0 ∧ cmd = s.cfg.cmdTransceive then 2 + t.dcnt.toNat else 0) := by
  rw [resultTrace, List.length_append]
  congr 1
  · rw [ite_not, apply_ite List.length]
    rfl
  · split_ifs with received
    · obtain ⟨hc, hx, ht⟩ := received
      obtain ⟨_, _, drained⟩ := ended.received (ended.status_ne_stErr hl hc hx) ht
      rw [List.length_append, List.length_map, drained]
      rfl
    · rfl

/-- An EXEC makes the transactions of lines 2 to 6 of R103 and then those of line 7. -/
theorem pseudoExec_result_bus (cmd : Byte) (data : List Byte) (hl : s.cfg.legal = true) {t : State}
    (ht : pseudoExec cmd data s = t) : ∃ w : Byte,
    t.bus = (pseudoPolled cmd data s).bus ++ resultTrace s.cfg cmd w t ∧
      (t.cnt ≠ 0 ∧ t.err &&& s.cfg.errMask = 0 ∧ cmd = s.cfg.cmdTransceive →
        t.vb = validBitsOf s.cfg.lastBitsLsb w) := by
  subst ht
  have same := sameRegisters_pseudoPolled cmd data s
  have hcfg : (pseudoPolled cmd data s).cfg = s.cfg := same.cfg
  have hcmd : (pseudoPolled cmd data s).cmd = cmd := same.cmd
  obtain ⟨u, hu⟩ : ∃ u, pseudoResult (pseudoPolled cmd data s) = u := ⟨_, rfl⟩
  have result := pseudoResult_bus (by rwa [hcfg]) same.olen hu
  rw [hcfg, hcmd] at result
  obtain ⟨w, bus, vb⟩ := result
  rw [pseudoExec_eq, hu]
  exact ⟨w, bus.trans (List.append_assoc _ _ _), vb⟩

/-- The polls of an EXEC between what precedes them and what follows, and the number of transactions of each part (R115,
R132). -/
theorem pseudoExec_trace (cmd : Byte) {data : List Byte} (hlen : data.length ≤ 255) (hr : s.resetIn = none)
    (hl : s.cfg.legal = true) {t : State} (ht : pseudoExec cmd data s = t) :
    ∃ (pre : List Txn) (polls : List Byte) (f : Byte) (post : List Txn),
      t.bus = s.bus ++ pre ++ polls.map (Txn.read (busAddr s.cfg.regIrq))
        ++ Txn.read (busAddr s.cfg.regBitFraming) f :: post ∧
      pre.length = 7 + data.length + (if cmd = s.cfg.cmdTransceive then 2 else 0) ∧
      post.length = (if t.cnt ≠ 0 then 1 else 0)
        + (if t.cnt ≠ 0 ∧ t.err &&& s.cfg.errMask = 0 ∧ cmd = s.cfg.cmdTransceive then 2 + t.dcnt.toNat else 0) + 1 ∧
      PollRun (QuietPoll s.cfg (masksOf s.cfg cmd).2) s.cfg.pollBudget.toNat polls t.cnt t.nirq := by
  have ended := execEnd_pseudoExec cmd data hr hl
  obtain ⟨_, count, _⟩ := pseudoResult_frame (pseudoPolled cmd data s)
  obtain ⟨pre, polls, f, g, hpolled, hpre, run⟩ := pseudoPolled_trace (s := s) cmd hlen hl
  obtain ⟨w, hresult, _⟩ := pseudoExec_result_bus cmd data hl ht
  rw [← count, ← pseudoResult_nirq, ← respondExec_cnt, ← respondExec_nirq, ← pseudoExec_eq, ht] at run
  rw [ht] at ended
  refine ⟨pre, polls, f, Txn.write (busAddr s.cfg.regBitFraming) g :: resultTrace s.cfg cmd w t, ?_, hpre, ?_, run⟩
  · rw [hresult, hpolled, List.append_assoc]
    rfl
  · rw [List.length_cons, resultTrace_length w hl ended]

/-- Settles O34: `pollLoop_run` for the polls, which line 7 of R103 leaves in CNT and NIRQ. -/
theorem pollsAndExhaustion : Obligations.PollsAndExhaustion := by
  intro i s hi hlen ready
  have ⟨_, hr, hl⟩ := ready
  intro c wait quiet
  obtain ⟨pre, polls, f, post, bus, hpre, _, run⟩ := pseudoExec_trace (commandOf c i) hlen hr hl rfl
  have ended := execEnd_pseudoExec (commandOf c i) i.data hr hl
  refine ⟨_, pre, post, polls, f, exec_pseudo hi ready, bus, hpre, run.length_pos, run.length_le, run.cnt_eq, run.last,
    run.before, run.exhausted_iff, fun hc => (ended.status_eq_stErr_iff hl).2 (.inl hc), fun one => ?_⟩
  have budget : c.pollBudget.toNat = 1 := by rw [one]; rfl
  rw [cnt_eq_zero, run.cnt_eq, budget]
  exact Nat.sub_eq_zero_of_le run.length_pos

/-! ## The number of transactions (R132) -/

/-- The number of transactions of an EXEC that polled `p` times. -/
structure ExecCount (cmd : Byte) (len : Nat) (s t : State) (p : Nat) : Prop where
  pos : 1 ≤ p
  le : p ≤ s.cfg.pollBudget.toNat
  cnt : t.cnt.toNat = s.cfg.pollBudget.toNat - p
  length : t.bus.length = s.bus.length + 7 + len + (if cmd = s.cfg.cmdTransceive then 2 else 0) + p + 2
    + (if t.cnt ≠ 0 then 1 else 0)
    + (if t.cnt ≠ 0 ∧ t.err &&& s.cfg.errMask = 0 ∧ cmd = s.cfg.cmdTransceive then 2 + t.dcnt.toNat else 0)

theorem execCount_pseudoExec (cmd : Byte) {data : List Byte} (hlen : data.length ≤ 255) (hr : s.resetIn = none)
    (hl : s.cfg.legal = true) {t : State} (ht : pseudoExec cmd data s = t) : ∃ p, ExecCount cmd data.length s t p := by
  obtain ⟨pre, polls, f, post, bus, hpre, hpost, run⟩ := pseudoExec_trace cmd hlen hr hl ht
  have total := congrArg List.length bus
  simp only [List.length_append, List.length_map, List.length_cons, hpre, hpost] at total
  exact ⟨polls.length, run.length_pos, run.length_le, run.cnt_eq, by omega⟩

/-- Besides data and polls a command other than Transceive makes nine transactions, and one more unless exhausted. -/
theorem ExecCount.length_other {cmd : Byte} {len p : Nat} {t : State} (count : ExecCount cmd len s t p)
    (h : cmd ≠ s.cfg.cmdTransceive) : t.bus.length = s.bus.length + (if t.cnt = 0 then 9 else 10) + len + p := by
  have notReceived : ¬(t.cnt ≠ 0 ∧ t.err &&& s.cfg.errMask = 0 ∧ cmd = s.cfg.cmdTransceive) := fun received =>
    h received.2.2
  rw [count.length, if_neg h, if_neg notReceived, ite_not]
  split <;> omega

/-- No EXEC has every part at its longest: it receives only when the polls were fewer than the budget (R132). -/
theorem ExecCount.length_lt {cmd : Byte} {len p : Nat} {t : State} (count : ExecCount cmd len s t p)
    (hl : s.cfg.legal = true) (ended : ExecEnd cmd s t) :
    t.bus.length < s.bus.length + len + s.cfg.pollBudget.toNat + 30 := by
  have length := count.length
  have cnt := count.cnt
  have le := count.le
  have start : (if cmd = s.cfg.cmdTransceive then 2 else 0) ≤ 2 := by split <;> decide
  have result : (if t.cnt ≠ 0 ∧ t.err &&& s.cfg.errMask = 0 ∧ cmd = s.cfg.cmdTransceive then 2 + t.dcnt.toNat else 0)
      ≤ 18 := by
    split_ifs with received
    · obtain ⟨hc, hx, ht⟩ := received
      exact Nat.add_le_add_left (ended.dcnt_bounds hl (ended.status_ne_stErr hl hc hx) ht).2 2
    · exact Nat.zero_le _
  by_cases hc : t.cnt = 0
  · have notReceived : ¬(t.cnt ≠ 0 ∧ t.err &&& s.cfg.errMask = 0 ∧ cmd = s.cfg.cmdTransceive) := fun received =>
      received.1 hc
    rw [if_neg (not_not.2 hc), if_neg notReceived] at length
    omega
  · have within : t.cnt.toNat ≠ 0 := mt (cnt_eq_zero t.cnt).2 hc
    rw [if_pos hc] at length
    omega

/-- Settles O40: the sum of the parts; the polls that leave CNT above 0 are fewer than the budget, and the engine steps
are one more than the transactions. -/
theorem execTransactionCount : Obligations.ExecTransactionCount := by
  intro i s hi hlen ready
  have ⟨_, hr, hl⟩ := ready
  intro c cmd
  obtain ⟨p, count⟩ := execCount_pseudoExec cmd hlen hr hl rfl
  have ended := execEnd_pseudoExec cmd i.data hr hl
  refine ⟨_, p, exec_pseudo hi ready, rfl, count.pos, count.le, count.cnt, count.length, fun budget => ?_⟩
  have bound : (pseudoExec cmd i.data s).bus.length ≤ s.bus.length + 2284 := by
    have lt := count.length_lt hl ended
    have polls : s.cfg.pollBudget.toNat = 2000 := by rw [budget]; rfl
    omega
  refine ⟨bound, runEngine_phase_of_bus hl hr ?_⟩
  rw [finishRequest_acceptExec cmd i.data hr hl]
  exact Nat.lt_succ_of_le bound

/-! ## The results by command -/

/-- An EXEC emits its result registers as its response (R125). -/
theorem pseudoExec_response (cmd : Byte) (data : List Byte) {t : State} (ht : pseudoExec cmd data s = t) :
    t.responses = s.responses ++ [.exec t.status (payload t) t.vb t.bitLen] := by
  subst ht
  obtain ⟨u, hu⟩ : ∃ u, pseudoResult (pseudoPolled cmd data s) = u := ⟨_, rfl⟩
  have responses : u.responses = s.responses := by rw [← hu, pseudoResult_responses, pseudoPolled_responses]
  rw [pseudoExec_eq, hu]
  exact congrArg (· ++ [Response.exec u.status (payload u) u.vb u.bitLen]) responses

/-- The payload of a Transceive is empty on Error and then only (R126). -/
theorem ExecEnd.payload_eq_nil_iff {t : State} (h : ExecEnd s.cfg.cmdTransceive s t) (hl : s.cfg.legal = true) :
    payload t = [] ↔ t.status = s.cfg.stErr := by
  refine ⟨fun empty => ?_, fun hs => (h.empty (.inl hs)).1⟩
  by_contra hs
  obtain ⟨_, _, drained⟩ := h.received hs rfl
  have pos := (h.dcnt_bounds hl hs rfl).1
  rw [← drained, empty] at pos
  cases pos

/-- BITLEN exceeds the bits of the bytes drained exactly when the level exceeds MAX_LEN (R122, R123, R187). -/
theorem exactBitLen_gt_iff {m : BitVec 5} (lvl : Byte) (vb : BitVec 3) :
    exactBitLen lvl vb > 8 * ((drainCount m lvl).toNat : Int) ↔ lvl.toNat > m.toNat := by
  have hvb := vb.isLt
  have bits : 8 * ((lvl.toNat : Int) - 1) < exactBitLen lvl vb ∧ exactBitLen lvl vb ≤ 8 * (lvl.toNat : Int) := by
    by_cases h : vb = 0
    · rw [exactBitLen_of_eq_zero lvl h]; omega
    · have : vb.toNat ≠ 0 := fun h0 => h (BitVec.eq_of_toNat_eq h0)
      rw [exactBitLen_of_ne_zero lvl h]; omega
  by_cases hgt : lvl.toNat > m.toNat
  · rw [drainCount_of_gt hgt]; omega
  · by_cases h0 : lvl = 0
    · have : lvl.toNat = 0 := by rw [h0]; rfl
      have one : (drainCount m lvl).toNat = 1 := by rw [h0, drainCount_zero]; rfl
      omega
    · have whole := drainCount_of_le h0 (Nat.not_lt.1 hgt)
      omega

/-- An EXEC in a ready state completes, in the state that its pseudocode gives. -/
theorem exec_ends {i : Instr} {cmd : Byte} {data : List Byte} (hi : i.isExec = true) (hcmd : commandOf s.cfg i = cmd)
    (hdata : i.data = data) (ready : s.Ready) :
    ∃ t, exec i s = .next t ∧ pseudoExec cmd data s = t ∧ ExecEnd cmd s t := by
  subst hcmd hdata
  have ⟨_, hr, hl⟩ := ready
  exact ⟨_, exec_pseudo hi ready, rfl, execEnd_pseudoExec _ _ hr hl⟩

/-- Settles O42: `exactBitLen_gt_iff` on the level and the last bits that the Transceive has read. -/
theorem truncationShowsInBitLength : Obligations.TruncationShowsInBitLength := by
  intro s d ready
  obtain ⟨t, run, _, ended⟩ := exec_ends (i := .execTransceive d) (cmd := s.cfg.cmdTransceive) rfl rfl rfl ready
  refine ⟨t, run, fun hs => ?_⟩
  obtain ⟨dcnt, bitLen, drained⟩ := ended.received hs rfl
  rw [dcnt] at drained
  exact ⟨by rw [bitLen, drained]; exact exactBitLen_gt_iff _ _, fun hgt => by rw [drained, drainCount_of_gt hgt]⟩

/-- Without an error the status is the NoTagError test (R120). -/
theorem ExecEnd.status_of_noError {cmd : Byte} {t : State} (h : ExecEnd cmd s t) (hc : t.cnt ≠ 0)
    (hx : t.err &&& s.cfg.errMask = 0) :
    t.status = if t.nirq &&& t.ien &&& s.cfg.irqTimer ≠ 0 then s.cfg.stNoTag else s.cfg.stOk := by
  rw [h.status, if_neg (not_or.2 ⟨hc, not_not.2 hx⟩)]

/-- What a Transceive without an error reads last: the level, the last bits and the payload (R121, R124). -/
theorem received_bus {data : List Byte} (hlen : data.length ≤ 255) (hl : s.cfg.legal = true) {t : State}
    (ht : pseudoExec s.cfg.cmdTransceive data s = t) (hc : t.cnt ≠ 0) (hx : t.err &&& s.cfg.errMask = 0) :
    ∃ (pre : List Txn) (w : Byte),
      t.bus = s.bus ++ pre ++ [Txn.read (busAddr s.cfg.regFifoLevel) t.lvl, Txn.read (busAddr s.cfg.regControl) w]
        ++ (payload t).map (Txn.read (busAddr s.cfg.regFifoData)) ∧
      t.vb = validBitsOf s.cfg.lastBitsLsb w := by
  obtain ⟨pre, polls, f, g, hpolled, _⟩ := pseudoPolled_trace (s := s) s.cfg.cmdTransceive hlen hl
  obtain ⟨w, hresult, hvb⟩ := pseudoExec_result_bus s.cfg.cmdTransceive data hl ht
  rw [resultTrace, if_neg hc, if_pos ⟨hc, hx, rfl⟩, hpolled] at hresult
  refine ⟨pre ++ polls.map (Txn.read (busAddr s.cfg.regIrq))
    ++ [Txn.read (busAddr s.cfg.regBitFraming) f, Txn.write (busAddr s.cfg.regBitFraming) g,
        Txn.read (busAddr s.cfg.regError) t.err], w, ?_, hvb ⟨hc, hx, rfl⟩⟩
  rw [hresult]
  simp only [List.append_assoc, List.cons_append, List.nil_append]

/-- Settles O36: the registers by `ExecEnd`, the counts by `ExecCount`, the last transactions by `received_bus`. -/
theorem transceiveResult : Obligations.TransceiveResult := by
  refine ⟨rfl, rfl, fun s d ready hlen => ?_⟩
  have ⟨_, hr, hl⟩ := ready
  intro c
  obtain ⟨t, run, ht, ended⟩ := exec_ends (i := .execTransceive d) (cmd := c.cmdTransceive) (data := d) rfl rfl rfl
    ready
  obtain ⟨p, count⟩ := execCount_pseudoExec c.cmdTransceive hlen hr hl ht
  have length := count.length
  rw [if_pos rfl] at length
  have ien : t.ien = c.ienTrx := by rw [ended.ien, masksOf_transceive hl]
  have wait : t.wait = c.waitTrx := by rw [ended.wait, masksOf_transceive hl]
  refine ⟨t, p, run, ien, wait, count.pos, count.le, count.cnt, pseudoExec_response _ d ht, fun hc => ?_,
    fun hc hx => ?_, fun hc hx => ?_, ended.payload_eq_nil_iff hl, fun hs => (ended.empty (.inl hs)).2⟩
  · have cnt := count.cnt
    rw [(cnt_eq_zero _).1 hc] at cnt
    rw [if_neg (not_not.2 hc), if_neg (fun received => received.1 hc)] at length
    exact ⟨(ended.status_eq_stErr_iff hl).2 (.inl hc), Nat.le_antisymm count.le (Nat.le_of_sub_eq_zero cnt.symm),
      by omega⟩
  · rw [if_pos hc, if_neg (fun received => hx received.2.1)] at length
    exact ⟨(ended.status_eq_stErr_iff hl).2 (.inr hx), by omega⟩
  · have ok := ended.status_ne_stErr hl hc hx
    have status := ended.status_of_noError hc hx
    obtain ⟨_, bitLen, drained⟩ := ended.received ok rfl
    obtain ⟨pos, le⟩ := ended.dcnt_bounds hl ok rfl
    obtain ⟨pre, w, bus, vb⟩ := received_bus hlen hl ht hc hx
    rw [if_pos hc, if_pos ⟨hc, hx, rfl⟩] at length
    rw [ien] at status
    refine ⟨status, fun enabled => ?_, by omega, drained, pos, le, pre, w, bus, by rw [vb, validBitsOf_toNat],
      fun h => bitLen.trans (exactBitLen_of_ne_zero _ h), fun h => bitLen.trans (exactBitLen_of_eq_zero _ h)⟩
    rw [status, BitVec.and_assoc, enabled]
    split_ifs with timer
    · exact iff_of_true rfl timer
    · exact iff_of_false (legal_status hl).1 timer

/-! ## The commands other than Transceive -/

section
variable {cmd : Byte} {t : State} (ended : ExecEnd cmd s t)
include ended

/-- The status with the masks of the command, as R127 to R131 write the NoTagError test. -/
theorem ExecEnd.status_of_mask {ien : Byte} (hien : t.ien = ien) :
    t.status = if t.cnt = 0 ∨ t.err &&& s.cfg.errMask ≠ 0 then s.cfg.stErr
      else if ien &&& s.cfg.irqTimer &&& t.nirq ≠ 0 then s.cfg.stNoTag else s.cfg.stOk := by
  have same : ien &&& s.cfg.irqTimer &&& t.nirq = t.nirq &&& t.ien &&& s.cfg.irqTimer := by
    rw [hien, BitVec.and_comm, BitVec.and_assoc]
  rw [same, ended.status]

/-- A mask without the timer bit never gives NoTagError (R120, R127). -/
theorem ExecEnd.status_ne_stNoTag (hl : s.cfg.legal = true) (h : t.ien &&& s.cfg.irqTimer = 0) :
    t.status ≠ s.cfg.stNoTag := by
  obtain ⟨ok, _, err⟩ := legal_status hl
  have never : ¬t.ien &&& s.cfg.irqTimer &&& t.nirq ≠ 0 := by rw [h]; exact not_not.2 BitVec.zero_and
  rw [ended.status_of_mask rfl, if_neg never]
  split
  · exact err.symm
  · exact ok

end

/-- Settles O37: the registers by `ExecEnd`, the counts by `ExecCount`; Authenticate is not Transceive (R9 (e)). -/
theorem authentResult : Obligations.AuthentResult := by
  intro s d ready hlen
  have ⟨_, hr, hl⟩ := ready
  intro c
  obtain ⟨t, run, ht, ended⟩ := exec_ends (i := .execAuthent d) (cmd := c.cmdAuthent) (data := d) rfl rfl rfl ready
  obtain ⟨p, count⟩ := execCount_pseudoExec c.cmdAuthent hlen hr hl ht
  have other : c.cmdAuthent ≠ c.cmdTransceive := legal_commands hl
  have ien : t.ien = c.ienAuth := by rw [ended.ien, masksOf_authent]
  have wait : t.wait = c.waitAuth := by rw [ended.wait, masksOf_authent]
  obtain ⟨payload, vb, bitLen⟩ := ended.empty (.inr other)
  exact ⟨t, p, run, ien, wait, count.pos, count.le, count.cnt, ended.status_of_mask ien,
    fun h => ended.status_ne_stNoTag hl (by rw [ien]; exact h), by decide, payload, vb, bitLen,
    count.length_other other⟩

/-- The command register of a legal CFG shares its address with no other register (R9, R51). -/
theorem busAddr_ne_command {c : Cfg} (hl : c.legal = true) {a : Byte} (ha : a ∈ c.registers.tail) :
    busAddr a ≠ busAddr c.regCommand := by
  have distinct := legal_addresses hl
  rw [Cfg.registers, List.map_cons, List.nodup_cons] at distinct
  intro same
  exact distinct.1 (same ▸ List.mem_map_of_mem (f := fun a => (busAddr a).toNat) ha)

@[simp] theorem addr_write (a : BusAddr) (v : Byte) : (Txn.write a v).addr = a := rfl
@[simp] theorem addr_read (a : BusAddr) (v : Byte) : (Txn.read a v).addr = a := rfl

/-- None of the transactions at one address is at another. -/
theorem filter_addr_eq_nil {a r : BusAddr} {f : Byte → Txn} (hf : ∀ v, (f v).addr = a) (h : a ≠ r) (bytes : List Byte) :
    (bytes.map f).filter (fun x => x.addr = r) = [] := by
  simp [hf, h]

/-- Of the transactions of an EXEC two are at the command register: Idle, then the command (R109, R111). -/
theorem exec_commandWrites {i : Instr} (hi : i.isExec = true) (hlen : i.data.length ≤ 255) (ready : s.Ready) {t : State}
    (run : exec i s = .next t) : (t.bus.drop s.bus.length).filter (fun x => x.addr = busAddr s.cfg.regCommand) =
      [.write (busAddr s.cfg.regCommand) s.cfg.cmdIdle,
       .write (busAddr s.cfg.regCommand) (commandOf s.cfg i)] := by
  have ⟨_, _, hl⟩ := ready
  obtain ⟨u, a, b, g, f, w, polls, run', _, bus, _⟩ := execBusTrace i s hi hlen ready
  cases run.symm.trans run'
  have ien := busAddr_ne_command hl (a := s.cfg.regIen) (by simp [Cfg.registers])
  have irq := busAddr_ne_command hl (a := s.cfg.regIrq) (by simp [Cfg.registers])
  have error := busAddr_ne_command hl (a := s.cfg.regError) (by simp [Cfg.registers])
  have fifoData := busAddr_ne_command hl (a := s.cfg.regFifoData) (by simp [Cfg.registers])
  have fifoLevel := busAddr_ne_command hl (a := s.cfg.regFifoLevel) (by simp [Cfg.registers])
  have control := busAddr_ne_command hl (a := s.cfg.regControl) (by simp [Cfg.registers])
  have framing := busAddr_ne_command hl (a := s.cfg.regBitFraming) (by simp [Cfg.registers])
  simp only [List.append_assoc] at bus
  rw [bus, List.drop_left]
  simp [apply_ite (List.filter fun x : Txn => decide (x.addr = busAddr s.cfg.regCommand)), filter_addr_eq_nil, ien, irq,
    error, fifoData, fifoLevel, control, framing]

/-- Settles O38: as for Authenticate, with the masks of a plain command and `exec_commandWrites`. -/
theorem otherCommandsResult : Obligations.OtherCommandsResult := by
  intro i s hi plain ready hlen
  have ⟨_, hr, hl⟩ := ready
  intro c
  obtain ⟨t, run, ht, ended⟩ := exec_ends hi rfl rfl ready
  obtain ⟨p, count⟩ := execCount_pseudoExec (commandOf c i) hlen hr hl ht
  have ien : t.ien = c.ienOther := by rw [ended.ien, masksOf_plain plain]
  have wait : t.wait = c.waitOther := by rw [ended.wait, masksOf_plain plain]
  obtain ⟨payload, vb, bitLen⟩ := ended.empty (.inr plain.2)
  exact ⟨t, p, run, ended.issued, ien, wait, count.pos, count.le, count.cnt, ended.status_of_mask ien,
    fun h => ended.status_ne_stNoTag hl (by rw [ien, h]; exact BitVec.zero_and), payload, vb, bitLen,
    count.length_other plain.2, exec_commandWrites hi hlen ready run⟩

end Sys2Proof.Machine
end

section
/-! PROOFS. The CRC row: the pseudocode of R134 (O32) and the whole bus trace (O41). -/

namespace Sys2Proof.Machine

variable {s : State}

/-- Settles O32: the request is accepted at once, and its phases run the lines of R134. -/
theorem crcRunsThePseudocode : Obligations.CrcRunsThePseudocode := fun _ d ⟨idle, hr, hl⟩ =>
  (exec_request (i := .crc d) rfl ⟨idle, hr, hl⟩).trans (congrArg _ (finishRequest_acceptCrc d hr hl))

/-! ## The polls (R140, R143)

The poll of R140 is the poll of R114 at the other register, with the done flag in the place of the timer bit and with no
wait bit, so what `pollLoop_run` says of the one holds of the other. -/

/-- The state whose EXEC poll is the CRC poll of `s`. -/
def asExecPoll (s : State) : State :=
  { s with cfg := { s.cfg with regIrq := s.cfg.regDivIrq, irqTimer := s.cfg.crcDone }, wait := 0 }

theorem pollExit_asExecPoll (s : State) : pollExit (asExecPoll s) = crcPollExit s := by
  have noWait : waitSeen (asExecPoll s) = false := decide_eq_false (not_not.2 BitVec.and_zero)
  rw [pollExit, noWait, Bool.or_false]
  rfl

theorem quietPoll_asExecPoll (s : State) :
    QuietPoll (asExecPoll s).cfg (asExecPoll s).wait = fun v => v &&& s.cfg.crcDone = 0 :=
  funext fun _ => propext (and_iff_left BitVec.and_zero)

theorem pollLoop_asExecPoll (n : Nat) : pollLoop n (asExecPoll s) = asExecPoll (crcPollLoop n s) := by
  induction n generalizing s with
  | zero => rfl
  | succ n ih =>
    have pass : pollOnce (asExecPoll s).cfg.regIrq (asExecPoll s) = asExecPoll (pollOnce s.cfg.regDivIrq s) := rfl
    rw [pollLoop, crcPollLoop, pass, pollExit_asExecPoll, ih, apply_ite asExecPoll]

/-- The CRC poll loop reads REG_DIVIRQ only, until the done flag shows or the budget ends. -/
theorem crcPollLoop_run (h : s.cnt ≠ 0) : ∃ polls : List Byte,
    (crcPollLoop s.cnt.toNat s).bus = s.bus ++ polls.map (Txn.read (busAddr s.cfg.regDivIrq)) ∧
      PollRun (fun v => v &&& s.cfg.crcDone = 0) s.cnt.toNat polls (crcPollLoop s.cnt.toNat s).cnt
        (crcPollLoop s.cnt.toNat s).nirq := by
  have run := pollLoop_run (s := asExecPoll s) h
  rw [quietPoll_asExecPoll, pollLoop_asExecPoll] at run
  exact run

/-! ## The transactions of the lines of R134 -/

/-- Lines a and b of R134 on the bus. -/
theorem pseudoCrcPrepare_bus (s : State) : ∃ a b : Byte, (pseudoCrcPrepare s).bus = s.bus ++
    [Txn.read (busAddr s.cfg.regDivIrq) a, Txn.write (busAddr s.cfg.regDivIrq) (a &&& ~~~s.cfg.crcDone),
     Txn.read (busAddr s.cfg.regFifoLevel) b, Txn.write (busAddr s.cfg.regFifoLevel) (b ||| s.cfg.fifoFlush)] := by
  refine ⟨answer s, answer (clrb s.cfg.regDivIrq s.cfg.crcDone s), ?_⟩
  simp [pseudoCrcPrepare, setBits, clearBits]

/-- Lines c and d of R134 on the bus, when the data stand in IN and none is loaded yet. -/
theorem pseudoCrcLoad_bus {data : List Byte} (hi : s.idx = 0) (hlen : s.len.toNat = data.length)
    (hin : ∀ k < data.length, s.inBuf[k]? = data[k]?) : (pseudoCrcLoad s).bus = s.bus
      ++ data.map (Txn.write (busAddr s.cfg.regFifoData)) ++ [Txn.write (busAddr s.cfg.regCommand) s.cfg.cmdCalcCrc] := by
  have loaded := loadLoop_bus (s := s) data (by simp [hi, hlen]) (by simpa [hi] using hin)
  rw [pseudoCrcLoad, hlen, busWrite_bus, loaded, loadLoop_cfg]

@[simp] theorem pseudoCrcLoad_cfg (s : State) : (pseudoCrcLoad s).cfg = s.cfg := loadLoop_cfg _

/-- Line e of R134 on the bus, and the CNT and NIRQ it leaves. -/
theorem pseudoCrcPoll_run (hl : s.cfg.legal = true) : ∃ polls : List Byte,
    (pseudoCrcPoll s).bus = s.bus ++ polls.map (Txn.read (busAddr s.cfg.regDivIrq)) ∧
      PollRun (fun v => v &&& s.cfg.crcDone = 0) s.cfg.crcBudget.toNat polls (pseudoCrcPoll s).cnt
        (pseudoCrcPoll s).nirq :=
  crcPollLoop_run (s := loadCnt s.cfg.crcBudget s) (legal_budgets hl).2

/-- Line f of R134 on the bus: the two bytes read are the two result registers. -/
theorem pseudoCrcResult_bus (s : State) : (pseudoCrcResult s).bus = s.bus ++
    [Txn.read (busAddr s.cfg.regCrcL) (pseudoCrcResult s).crcL,
     Txn.read (busAddr s.cfg.regCrcH) (pseudoCrcResult s).crcH] := by
  simp [pseudoCrcResult]

@[simp] theorem pseudoCrcResult_cnt (s : State) : (pseudoCrcResult s).cnt = s.cnt := by simp [pseudoCrcResult]

/-- Line f responds with what the two result registers then hold. -/
theorem pseudoCrcResult_responses (s : State) : (pseudoCrcResult s).responses =
    s.responses ++ [.crc (pseudoCrcResult s).crcL (pseudoCrcResult s).crcH] := by
  simp [pseudoCrcResult]

/-! ## The whole trace of a CRC -/

/-- Only line f of R134 responds. -/
theorem pseudoCrcPolled_responses (data : List Byte) (s : State) :
    (pseudoCrcPolled data s).responses = s.responses := by
  have k : KeptByTransfers fun u => u.responses = s.responses :=
    ⟨fun _ _ _ h => h, fun _ _ h => h, fun _ h => h, fun _ _ h => h, fun _ _ h => h⟩
  exact k.pseudoCrcPoll (k.pseudoCrcLoad (k.pseudoCrcPrepare (acceptCrc_responses s data)))

/-- Lines a to e of R134 on the bus, and the CNT and NIRQ they leave. -/
theorem pseudoCrcPolled_run {data : List Byte} (hlen : data.length ≤ 255) (hl : s.cfg.legal = true) :
    ∃ (a b : Byte) (polls : List Byte), (pseudoCrcPolled data s).bus = s.bus
      ++ [Txn.read (busAddr s.cfg.regDivIrq) a, Txn.write (busAddr s.cfg.regDivIrq) (a &&& ~~~s.cfg.crcDone),
          Txn.read (busAddr s.cfg.regFifoLevel) b, Txn.write (busAddr s.cfg.regFifoLevel) (b ||| s.cfg.fifoFlush)]
      ++ data.map (Txn.write (busAddr s.cfg.regFifoData))
      ++ [Txn.write (busAddr s.cfg.regCommand) s.cfg.cmdCalcCrc]
      ++ polls.map (Txn.read (busAddr s.cfg.regDivIrq)) ∧
      PollRun (fun v => v &&& s.cfg.crcDone = 0) s.cfg.crcBudget.toNat polls (pseudoCrcPolled data s).cnt
        (pseudoCrcPolled data s).nirq := by
  let prepared := pseudoCrcPrepare (acceptCrc data s)
  have hcfg : prepared.cfg = s.cfg := pseudoCrcPrepare_cfg _
  have hload := pseudoCrcLoad_bus (s := prepared) (data := data) rfl (len_toNat data hlen)
    (fun k hk => (loaded_getElem? s.inBuf data hlen k).trans (if_pos hk))
  obtain ⟨a, b, hprepare⟩ := pseudoCrcPrepare_bus (acceptCrc data s)
  obtain ⟨polls, hpoll, run⟩ := pseudoCrcPoll_run (s := pseudoCrcLoad prepared) (by rwa [pseudoCrcLoad_cfg, hcfg])
  rw [pseudoCrcLoad_cfg, hcfg] at hpoll run
  rw [hload, hcfg, hprepare] at hpoll
  exact ⟨a, b, polls, hpoll, run⟩

/-- Settles O41: the run is the pseudocode of R134; its lines make these transactions one after another, and line f reads
the result whether the poll ended by the flag or by the budget. -/
theorem crcBusTrace : Obligations.CrcBusTrace := by
  intro d s hlen ready
  have ⟨_, _, hl⟩ := ready
  intro c
  have hcfg : (pseudoCrcPolled d s).cfg = c := (sameRegisters_pseudoCrcPolled d s).cfg
  obtain ⟨a, b, polls, hpolled, run⟩ := pseudoCrcPolled_run (s := s) hlen hl
  have trace := pseudoCrcResult_bus (pseudoCrcPolled d s)
  rw [hcfg, hpolled, ← pseudoCrc_eq] at trace
  rw [← pseudoCrcResult_cnt, ← pseudoCrc_eq] at run
  have responses := pseudoCrcResult_responses (pseudoCrcPolled d s)
  rw [pseudoCrcPolled_responses, ← pseudoCrc_eq] at responses
  have length := congrArg List.length trace
  simp only [List.length_append, List.length_map, List.length_cons, List.length_nil] at length
  have total : (pseudoCrc d s).bus.length = s.bus.length + 7 + d.length + polls.length := by
    rw [length]
    omega
  refine ⟨pseudoCrc d s, a, b, _, _, polls, crcRunsThePseudocode s d ready, rfl, trace, run.length_pos, run.length_le,
    run.cnt_eq, run.before, fun early => ⟨_, run.last, run.seen fun hc => ?_⟩, rfl, rfl,
    responses, total, fun budget => ?_⟩
  · have cnt := run.cnt_eq
    rw [hc] at cnt
    exact absurd early (Nat.not_lt.2 (Nat.sub_eq_zero_iff_le.1 cnt.symm))
  · have le : polls.length ≤ 255 := by
      have h : c.crcBudget.toNat = 255 := by rw [budget]; rfl
      exact h ▸ run.length_le
    omega

end Sys2Proof.Machine
end

section
/-! PROOFS. The cause table of every EXEC (O35). -/

namespace Sys2Proof.Machine

variable {s : State}

/-! ## The registers accessed before the result -/

/-- The six registers that lines 2 to 6 of R103 access. -/
def pollRegisters (c : Cfg) : List Byte :=
  [c.regIen, c.regIrq, c.regFifoLevel, c.regCommand, c.regFifoData, c.regBitFraming]

/-- The error register of a legal CFG shares its address with none of them (R9, R51). -/
theorem legal_error_address {c : Cfg} (hl : c.legal = true) : busAddr c.regError ∉ (pollRegisters c).map busAddr := by
  have distinct := legal_addresses hl
  simp only [Cfg.registers, List.map_cons, List.nodup_cons, List.mem_cons, not_or, BitVec.toNat_inj] at distinct
  obtain ⟨⟨_, _, _, command, _⟩, ⟨_, _, ien, _⟩, ⟨_, irq, _⟩, _, ⟨fifoData, fifoLevel, _, bitFraming, _⟩, _⟩ := distinct
  simp [pollRegisters, Ne.symm command, Ne.symm ien, Ne.symm irq, fifoData, fifoLevel, bitFraming]

/-- Line 3 of R103 on the bus, whatever stands in IN: LEN is at most 255, so the bytes loaded are the first of IN. -/
theorem pseudoLoad_bus_of_idx_zero (hi : s.idx = 0) : ∃ bytes : List Byte, (pseudoLoad s).bus = s.bus
    ++ [Txn.write (busAddr s.cfg.regCommand) s.cfg.cmdIdle] ++ bytes.map (Txn.write (busAddr s.cfg.regFifoData))
    ++ [Txn.write (busAddr s.cfg.regCommand) s.cmd] := by
  have fits := s.len.isLt
  have length : s.len.toNat = (s.inBuf.toList.take s.len.toNat).length := by
    rw [List.length_take, Vector.length_toList]
    omega
  refine ⟨_, pseudoLoad_bus hi length fun k hk => ?_⟩
  rw [List.getElem?_take_of_lt (by rwa [length]), Vector.getElem?_toList]

/-- Up to the end of the polls an EXEC accesses six registers only, however long its data (R106 to R118). -/
theorem pseudoPolled_addr (cmd : Byte) (data : List Byte) (hl : s.cfg.legal = true) : ∃ trace : List Txn,
    (pseudoPolled cmd data s).bus = s.bus ++ trace ∧ ∀ x ∈ trace, x.addr ∈ (pollRegisters s.cfg).map busAddr := by
  let prepared := pseudoPrepare (acceptExec cmd data s)
  obtain ⟨a, b, hprepare⟩ := pseudoPrepare_bus (acceptExec cmd data s)
  obtain ⟨bytes, hload⟩ := pseudoLoad_bus_of_idx_zero (s := prepared) rfl
  obtain ⟨g, hstart⟩ := pseudoStart_bus (pseudoLoad prepared)
  obtain ⟨polls, _, hpoll⟩ := pseudoPoll_bus (s := pseudoStart (pseudoLoad prepared)) (by simpa [prepared] using hl)
  obtain ⟨f, hstop⟩ := pseudoStop_bus (pseudoPoll (pseudoStart (pseudoLoad prepared)))
  rw [hpoll, hstart, hload, hprepare] at hstop
  simp only [List.append_assoc] at hstop
  refine ⟨_, hstop, ?_⟩
  split <;> simp [prepared, pollRegisters, or_imp, forall_and]

/-! ## The cause table (R151) -/

theorem resultTrace_exhausted {c : Cfg} {cmd w : Byte} {t : State} (hc : t.cnt = 0) : resultTrace c cmd w t = [] := by
  rw [resultTrace, if_pos hc, if_neg fun received => received.1 hc, List.append_nil]

theorem readError_mem_resultTrace {c : Cfg} {cmd w : Byte} {t : State} (hc : t.cnt ≠ 0) :
    Txn.read (busAddr c.regError) t.err ∈ resultTrace c cmd w t := by
  rw [resultTrace, if_neg hc]
  exact List.mem_append_left _ (List.mem_singleton_self _)

/-- Settles O35: the rows by `ExecEnd`; the error register is read in line 7 of R103 only, and not on exhaustion. -/
theorem statusFollowsCauseTable : Obligations.StatusFollowsCauseTable := by
  intro i s hi ready
  have ⟨_, _, hl⟩ := ready
  intro c cmd
  obtain ⟨t, run, ht, ended⟩ := exec_ends (cmd := cmd) hi rfl rfl ready
  obtain ⟨polled, hpolled, addr⟩ := pseudoPolled_addr (s := s) cmd i.data hl
  obtain ⟨w, hresult, _⟩ := pseudoExec_result_bus cmd i.data hl ht
  rw [hpolled, List.append_assoc] at hresult
  refine ⟨t, polled ++ resultTrace c cmd w t, run, hresult, ended.ien, pseudoExec_response cmd i.data ht, fun hc => ?_,
    fun hc => List.mem_append_right _ (readError_mem_resultTrace hc),
    fun _ hx => (ended.status_eq_stErr_iff hl).2 (.inr hx),
    fun hc hx timer => (ended.status_of_noError hc hx).trans (if_pos timer),
    fun hc hx timer => (ended.status_of_noError hc hx).trans (if_neg (not_not.2 timer)), ended.empty, fun hs htr => ?_⟩
  · refine ⟨(ended.status_eq_stErr_iff hl).2 (.inl hc), fun x hx error => ?_⟩
    rw [resultTrace_exhausted hc, List.append_nil] at hx
    exact legal_error_address hl (error ▸ addr x hx)
  · obtain ⟨dcnt, bitLen, drained⟩ := ended.received hs htr
    obtain ⟨pos, le⟩ := ended.dcnt_bounds hl hs htr
    rw [drained]
    exact ⟨pos, le, congrArg BitVec.toNat dcnt, bitLen⟩

end Sys2Proof.Machine
end

section
/-! PROOFS. A reset during a request abandons it (O13). -/

namespace Sys2Proof.Machine

variable {s : State}

/-! ## The steps before the reset -/

/-- No phase looks at the reset input. -/
theorem phaseStep_tick_commute : Function.Commute phaseStep tick := by
  intro s
  rw [phaseStep, phaseStep, tick_phase]
  cases s.phase with
  | xCmdWr =>
    rw [phaseXCmdWr, phaseXCmdWr, apply_ite tick]
    rfl
  | _ => rfl

theorem phaseStep_of_idle (h : s.phase = .idle) : phaseStep s = s := by rw [phaseStep, h]

/-- A request that has not ended after `k` steps was in progress before them. -/
theorem phase_ne_idle_of_iterate {k : Nat} (h : (phaseStep^[k] s).phase ≠ .idle) : s.phase ≠ .idle :=
  fun idle => h (by rwa [Function.iterate_fixed (phaseStep_of_idle idle)])

/-- Until a request has ended it is not answered (R125, R142). -/
theorem iterate_phaseStep_responses {k : Nat} (h : (phaseStep^[k] s).phase ≠ .idle) :
    (phaseStep^[k] s).responses = s.responses := by
  induction k generalizing s with
  | zero => rfl
  | succ k ih =>
    rw [Function.iterate_succ_apply] at h ⊢
    rw [ih h]
    cases busyStep_phaseStep (phase_ne_idle_of_iterate (k := k + 1) h) with
    | transfer _ responses _ => exact responses
    | respond _ r next => exact absurd (congrArg State.phase next) (phase_ne_idle_of_iterate h)

/-! ## The reset in the middle -/

/-- A reset asserted now takes the place of the engine step (R178, log 8). -/
theorem engineStep_of_zero (h : s.resetIn = some 0) : engineStep s = resetEngine s := by
  rw [engineStep, if_pos (resetNow_iff.2 h)]

/-- Before the reset the phase steps and the countdown goes on (log 8). -/
theorem engineStep_of_succ {k : Nat} (h : s.resetIn = some (k + 1)) : engineStep s = phaseStep (tick s) := by
  rw [engineStep, if_neg (by simp [resetNow_iff, h])]

/-- A reset in `k` steps lets the request make those steps, and then resets the engine (R178). -/
theorem finishRequest_of_reset {k : Nat} (hr : s.resetIn = some k) (h : (phaseStep^[k] s).phase ≠ .idle) :
    finishRequest s = resetEngine (phaseStep^[k] s) := by
  have hp := phase_ne_idle_of_iterate h
  induction k generalizing s with
  | zero => rw [finishRequest_busy hp, engineStep_of_zero hr, finishRequest_idle rfl, Function.iterate_zero_apply]
  | succ k ih =>
    have steps : phaseStep^[k] (phaseStep (tick s)) = tick (phaseStep^[k + 1] s) :=
      phaseStep_tick_commute.iterate_left (k + 1) s
    have busy : (phaseStep^[k] (phaseStep (tick s))).phase ≠ .idle := by rwa [steps]
    rw [finishRequest_busy hp, engineStep_of_succ hr,
      ih (by simp [hr]) busy (phase_ne_idle_of_iterate busy), steps]
    rfl

/-- What an abandoned request leaves: reset registers, the transactions made before, no response (R178). -/
theorem finishRequest_abandoned {k : Nat} (hr : s.resetIn = some k) (h : (phaseStep^[k] s).phase ≠ .idle) :
    (finishRequest s).RegistersReset ∧ (finishRequest s).bus = (phaseStep^[k] s).bus ∧
      (finishRequest s).responses = s.responses := by
  rw [finishRequest_of_reset hr h]
  exact ⟨registersReset_resetEngine _, rfl, iterate_phaseStep_responses h⟩

/-! ## The steps of the block -/

/-- The step of a busy engine finishes the request, and a reset asserted now is the shortest such run. -/
theorem step_of_busy (hl : s.cfg.legal = true) (hp : s.phase ≠ .idle) : step s = .next (finishRequest s) := by
  by_cases hr : s.resetIn = some 0
  · rw [finishRequest_busy hp, engineStep_of_zero hr, finishRequest_idle rfl]
    exact step_settle (fetch_reset hl hr)
  · exact step_settle (fetch_busy hl hr hp)

/-- Acceptance counts as one step of the countdown (R132, log 8). -/
theorem whenIdle_of_succ {k : Nat} (h : s.phase = .idle) (hr : s.resetIn = some (k + 1)) : whenIdle s = tick s := by
  rw [whenIdle, finishRequest_idle h, if_neg (by simp [resetNow_iff, hr])]

theorem acceptRequest_tick (i : Instr) (s : State) : acceptRequest i (tick s) = tick (acceptRequest i s) := by
  rw [acceptRequest, acceptRequest, apply_ite tick]
  rfl

@[simp] theorem acceptRequest_resetIn (i : Instr) (s : State) : (acceptRequest i s).resetIn = s.resetIn := by
  rw [acceptRequest]
  split <;> rfl

@[simp] theorem acceptRequest_responses (i : Instr) (s : State) :
    (acceptRequest i s).responses = s.responses := by
  rw [acceptRequest]
  split <;> rfl

/-- Settles O13: by `finishRequest_abandoned`, for a request in progress at once, for an accepted one in the state that
acceptance and its tick of the countdown leave. -/
theorem resetAbandonsTheRequest : Obligations.ResetAbandonsTheRequest := by
  refine ⟨fun k s hl hr h => ?_, fun k i s u hi hp hr hu h => ?_⟩
  · exact ⟨_, step_of_busy hl (phase_ne_idle_of_iterate h), finishRequest_abandoned hr h⟩
  · obtain rfl : u = acceptRequest i s := hu
    have run : exec i s = .next (finishRequest (tick (acceptRequest i s))) := by
      rw [exec_request_of_whenIdle hi, whenIdle_of_succ hp hr, acceptRequest_tick]
    have steps : phaseStep^[k] (tick (acceptRequest i s)) = tick (phaseStep^[k] (acceptRequest i s)) :=
      phaseStep_tick_commute.iterate_left k _
    obtain ⟨registers, bus, responses⟩ := finishRequest_abandoned (k := k) (s := tick (acceptRequest i s))
      (by simp [hr]) (by rwa [steps])
    rw [steps] at bus
    exact ⟨_, run, registers, bus, responses.trans (acceptRequest_responses i s)⟩

end Sys2Proof.Machine
end
